-- ==== Sys2Proof/Word.lean ====
section
/-! DEFINITION. The two word types of the block (00_scope.md section 8: a byte is 8 bits; R5: a host register is 16 bits).
All values are unsigned. -/

namespace Sys2Proof

/-- A byte of a frame, 8 bits. -/
abbrev Byte := BitVec 8

/-- A host register, a protocol field or a checksum, 16 bits. -/
abbrev Word := BitVec 16

end Sys2Proof
end

