-- ==== Sys2Proof/Config.lean ====
section
/-! DEFINITION. The parameters of the block (00_scope.md R5: nothing is configurable at run time) and the one value the
spec leaves open at reset (92_eei_decisions.md P2). -/

namespace Sys2Proof.Config

/-- `CRC_POLY`, R5: the constant XORed in when the bit shifted out is 1. -/
def crcPoly : Word := 0xA001#16

/-- `CRC_INIT`, R5: the accumulator before the first byte. -/
def crcInit : Word := 0xFFFF#16

/-- `FC_READ`, R5: function code "read holding registers". -/
def fcRead : Byte := 0x03#8

/-- `FC_WRITE`, R5: function code "write single register". -/
def fcWrite : Byte := 0x06#8

/-- `ERR_REQCRC`, R5: device error code "request checksum rejected". -/
def errReqcrc : Byte := 0x08#8

/-- `REQ_LEN` and `TXCAP`, R5: the length of every request, which is the capacity of `TXBUF`. -/
def txCap : Nat := 8

/-- `RXCAP`, R5: the capacity of `RXBUF`. -/
def rxCap : Nat := 260

/-- `EXPBODY_MAX`, R5: the largest expected body length that XFER accepts. -/
def expbodyMax : Nat := 256

/-- `RXFIFO_AT_RESET`, 92_eei_decisions.md P2: the bytes waiting in the link when the machine starts, any finite sequence.
A FREE VALUE: it has no body, so nothing can be proved of it and no claim can assume it empty (log entry 8). -/
opaque rxfifoAtReset : List Byte

end Sys2Proof.Config
end

