-- ==== Sys2Proof/Machine/Bytes.lean ====
section
/-! DEFINITION. Byte order of 16-bit fields (00_scope.md section 8 "Field assembly", 20_memory.md R41, R42, R57). -/

namespace Sys2Proof.Machine

/-- `be16(v) = [v[15:8], v[7:0]]`: a protocol field, high byte first (R41). -/
def be16 (v : Word) : List Byte := [v.extractLsb' 8 8, v.extractLsb' 0 8]

/-- `le16(v) = [v[7:0], v[15:8]]`: a checksum, low byte first (R42). -/
def le16 (v : Word) : List Byte := [v.extractLsb' 0 8, v.extractLsb' 8 8]

/-- `u16be(b0, b1) = (b0 << 8) OR b1`. -/
def u16be (b0 b1 : Byte) : Word := b0 ++ b1

/-- `u16le(b0, b1) = (b1 << 8) OR b0`. -/
def u16le (b0 b1 : Byte) : Word := b1 ++ b0

/-- Byte `i` of a sequence. Every caller asks only for an index below the length; there is no other byte to give. -/
def byteAt (f : List Byte) (i : Nat) : Byte := f.getD i 0#8

end Sys2Proof.Machine
end

