-- ==== Sys2Proof/Machine/CrcUnit.lean ====
section
/-! DEFINITION. The checksum functions of 40_crc.md section 1: `crc_round` (R69), `crc_byte` (R70), `crc16` (R71).
Pure functions; the framer, the validator and the host commands all use these and no others (R82, hazard R127). -/

namespace Sys2Proof.Machine

/-- `crc_round(a)`, R69: the low bit is tested before the logical shift. -/
def crcRound (a : Word) : Word :=
  if a.getLsbD 0 then (a >>> 1) ^^^ Config.crcPoly else a >>> 1

/-- `k` rounds in a row. -/
def crcRounds : Nat → Word → Word
  | 0, a => a
  | k + 1, a => crcRounds k (crcRound a)

/-- `crc_byte(a, b)`, R70: the byte is XORed into bits 7 to 0, then eight rounds. -/
def crcByte (a : Word) (b : Byte) : Word := crcRounds 8 (a ^^^ b.setWidth 16)

/-- The accumulator `a` after the bytes of `s`, first byte first (the loop of R71; also its composition law). -/
def crcFrom (a : Word) (s : List Byte) : Word := s.foldl crcByte a

/-- `crc16(s)`, R71: from 0xFFFF, no final XOR. -/
def crc16 (s : List Byte) : Word := crcFrom Config.crcInit s

/-- R51: a frame's last two bytes, low byte first, are the checksum of all bytes before them. -/
def checksumValid (f : List Byte) : Bool :=
  decide (2 ≤ f.length) &&
    u16le (byteAt f (f.length - 2)) (byteAt f (f.length - 1)) == crc16 (f.take (f.length - 2))

end Sys2Proof.Machine
end

