-- ==== Sys2Proof/Machine/Frames.lean ====
section
/-! DEFINITION. The bytes of the wire formats before their checksum (30_encoding.md R51 to R56), and the checksum appended
low byte first. Used by the encoder, by the framer and by the device's frames alike. -/

namespace Sys2Proof.Machine

/-- Bytes 0 to 5 of `READ_REQ`, `WRITE_REQ` and `WRITE_REPLY` (R52, R53, R55): device address, function code, two fields
high byte first. -/
def fieldsHead (dev fn : Byte) (a v : Word) : List Byte := [dev, fn] ++ be16 a ++ be16 v

/-- Bytes 0 to 2 of `ERROR_REPLY` (R56): the error flag is bit 7 of byte 1. -/
def errorHead (dev : Byte) (func : BitVec 7) (code : Byte) : List Byte := [dev, 1#1 ++ func, code]

/-- Bytes 0 to 2 + `byte_len` of `READ_REPLY` (R54): `byte_len` is the number of payload bytes. -/
def readReplyHead (dev : Byte) (payload : List Byte) : List Byte :=
  [dev, Config.fcRead, BitVec.ofNat 8 payload.length] ++ payload

/-- All but the checksum of a frame of no known format (R51, R60). -/
def unknownHead (dev fn : Byte) (body : List Byte) : List Byte := [dev, fn] ++ body

/-- A frame whose checksum field holds `crc`, low byte first (R42, R51). -/
def withCrc (head : List Byte) (crc : Word) : List Byte := head ++ le16 crc

/-- A frame whose checksum field holds the right checksum. -/
def sealed (head : List Byte) : List Byte := withCrc head (crc16 head)

end Sys2Proof.Machine
end

