-- ==== Sys2Proof/Syntax.lean ====
section
/-! DEFINITION. The operations of the block: one constructor for each of the 21 rows of spec/opcode_table.json. -/

namespace Sys2Proof

/-- One operation of the block or one frame of its wire protocol. -/
inductive Instr where
  /-- NOP, `CMD` code 0x0 (R83). -/
  | nop
  /-- CRC_INIT, `CMD` code 0x1 (R72). -/
  | crcInit
  /-- CRC_BYTE, `CMD` code 0x2 (R73). -/
  | crcByteCmd
  /-- ENC_READ, `CMD` code 0x3 (R79). -/
  | encRead
  /-- ENC_WRITE, `CMD` code 0x4 (R81). -/
  | encWrite
  /-- XFER, `CMD` code 0x5 (R85). -/
  | xfer
  /-- DECODE, `CMD` code 0x6 (R92). -/
  | decodeCmd
  /-- CHECK, `CMD` code 0x7 (R95). -/
  | check
  /-- The reserved codes 0x8 to 0xF (R63): `low` is bits 2 to 0 of the code. -/
  | cmdReserved (low : BitVec 3)
  /-- READ_REQ, a frame from block to device (R52). -/
  | readReq (dev : Byte) (start count crc : Word)
  /-- WRITE_REQ, a frame from block to device (R53). -/
  | writeReq (dev : Byte) (reg val crc : Word)
  /-- ERROR_REPLY, a frame from device to block (R56): `func` is bits 6 to 0 of byte 1, whose bit 7 is 1. -/
  | errorReply (dev : Byte) (func : BitVec 7) (code : Byte) (crc : Word)
  /-- READ_REPLY, a frame from device to block (R54): `byte_len` is the length of `payload`. -/
  | readReply (dev : Byte) (payload : List Byte) (crc : Word)
  /-- WRITE_REPLY, a frame from device to block (R55). -/
  | writeReply (dev : Byte) (reg val crc : Word)
  /-- UNKNOWN_REPLY, a frame from device to block of none of the three reply formats (R60). -/
  | unknownReply (dev func : Byte) (body : List Byte) (crc : Word)
  /-- crc_round, one shift round (R69). -/
  | crcRound (a : Word)
  /-- crc_byte, one byte absorbed (R70). -/
  | crcByte (a : Word) (b : Byte)
  /-- crc16, the checksum of a byte sequence (R71). -/
  | crc16 (bytes : List Byte)
  /-- RxByte, the receiver takes one byte from the link (R88). -/
  | rxByte
  /-- RxTimeout, the link fell silent (R89). -/
  | rxTimeout
  /-- decode, a byte sequence verified and classified (R91). -/
  | decode (bytes : List Byte)
deriving DecidableEq, Repr

/-- The two directions of travel on the link (R58: the direction, not any bit of the frame, tells a request from a reply). -/
inductive Direction where
  /-- From block to device: a request. -/
  | toDevice
  /-- From device to block: a reply. -/
  | toBlock
deriving DecidableEq, Repr

/-- What an encoded operation looks like from outside: the value written to `CMD` (R61), or the bytes of a frame in
transmission order with their direction (R51, R64). -/
inductive Code where
  /-- The 16-bit value written to `CMD`. -/
  | command (v : Word)
  /-- The bytes of a frame. -/
  | frame (dir : Direction) (bytes : List Byte)
deriving DecidableEq, Repr

end Sys2Proof
end

