-- ==== Sys2Proof/Machine/State.lean ====
section
/-! DEFINITION. The state of the block (10_state.md R7), of the link it reads and writes (20_memory.md R38), and of the
model's own scheduling (log entries 1 and 3), with the reset values of R33. -/

namespace Sys2Proof.Machine

/-- A buffer: pairs of index and byte, indices strictly rising, no pair that holds what an unlisted index reads as. -/
abbrev Memory := List Host.Cell

/-- What an unlisted buffer byte reads as. DESIGN CHOICE, log entry 7: R33 leaves the bytes unspecified, and no register
shows one (R20, R21). -/
def Memory.unlisted : Byte := 0x00#8

/-- `RXSTATE` (R9). -/
inductive RxState where
  | idle
  | receiving
deriving DecidableEq, Repr

/-- `RESULT` (R17): the codes that can be produced; 7 to 15 never are (93_implementation_defined.md U12, log entry 11). -/
inductive ResultCode where
  | none
  | ok
  | writeAck
  | deviceError
  | checksumMismatch
  | truncated
  | unexpected
deriving DecidableEq, Repr

/-- `CHK` (R17): the codes that can be produced; 3 never is (U12, log entry 11). -/
inductive CheckCode where
  | none
  | pass
  | violation
deriving DecidableEq, Repr

/-- The outcome flags and the diagnostic registers, which are always cleared together (R97). -/
structure Results where
  /-- `RESULT`, 4 bits in `STATUS`. -/
  result : ResultCode
  /-- `CHK`, 2 bits in `STATUS`. -/
  chk : CheckCode
  /-- `REQCRC`, 1 bit in `STATUS`. -/
  reqcrc : Bool
  /-- `CRCRX`: the checksum received in the last decoded frame. -/
  crcrx : Word
  /-- `CRCCALC`: the checksum computed over the last decoded frame. -/
  crccalc : Word
  /-- `ERRCODE`: the raw device error code. -/
  errcode : Byte
  /-- `PAYLEN`: the payload length of an `Ok` reply. -/
  paylen : Byte
  /-- `ACKADDR`: the address field of a `WriteAck`. -/
  ackaddr : Word
  /-- `ACKVAL`: the value field of a `WriteAck`. -/
  ackval : Word
deriving DecidableEq, Repr

/-- All nine at 0: `RESULT = NONE`, `CHK = NONE` (R33, R85, R97). -/
def Results.cleared : Results :=
  { result := .none, chk := .none, reqcrc := false, crcrx := 0#16, crccalc := 0#16, errcode := 0#8, paylen := 0#8,
    ackaddr := 0#16, ackval := 0#16 }

/-- What an agent does in one step (00_scope.md R6). The model's own: which one comes next is the environment's and the
host's free choice, held as data (log entry 1). -/
inductive Input where
  /-- The host writes `v` to the register numbered `r` (R12). -/
  | hostWrite (r : Nat) (v : Word)
  /-- The host reads the register numbered `r` (R12). -/
  | hostRead (r : Nat)
  /-- The device sends one byte (R39). -/
  | deviceSend (b : Byte)
  /-- The block's receiver has its turn (R88). -/
  | receive
  /-- The transport reports silence (R40). -/
  | linkTimeout
  /-- The transport discards what waits in the link (R40). -/
  | linkFlush
  /-- The platform resets the block (R121). -/
  | reset
  /-- A whole frame of the wire formats: towards the block, the device sends its bytes in one go; towards the device, the
  host has the framer build it (log entries 4 and 5). -/
  | frame (dir : Direction) (bytes : List Byte)
deriving DecidableEq, Repr

/-- The state. -/
structure State where
  /-- `ARG_DEV` (R14). -/
  argDev : Byte
  /-- `ARG_ADDR` (R15). -/
  argAddr : Word
  /-- `ARG_DATA` (R16). -/
  argData : Word
  /-- `BUFIDX` (R19). -/
  bufidx : BitVec 9
  /-- `CMDERR` (R10). -/
  cmderr : Bool
  /-- `CRCACC` (R11, R18). -/
  crcacc : Word
  /-- `TXBUF` (R30). -/
  txbuf : Memory
  /-- `TXLEN` (R30). -/
  txlen : Nat
  /-- `RXBUF` (R31). -/
  rxbuf : Memory
  /-- `RXLEN` (R22). -/
  rxlen : Nat
  /-- `RXEXP` (R23). -/
  rxexp : Nat
  /-- `RXSTATE` (R9). -/
  rxstate : RxState
  /-- `RESULT`, `CHK`, `REQCRC` and the six diagnostic registers (R10, R24 to R29). -/
  res : Results
  /-- `TXSTREAM`, the environment's: every byte sent, oldest first (R38). -/
  txstream : List Byte
  /-- `RXFIFO`, the environment's: the bytes that have arrived and not been pulled, head first (R38). -/
  rxfifo : List Byte
  /-- The model's own: what the agents do next, first to come first (log entry 1). -/
  inputs : List Input
  /-- The model's own: the value the last value-returning operation gave its caller (log entry 3). -/
  retval : Word
deriving DecidableEq, Repr

/-- The state after reset (R33). `TXSTREAM`, `RXFIFO` and the model's own fields are no part of the reset: log entries 8,
1 and 3 say what they hold here. -/
def State.reset : State :=
  { argDev := 0x00#8, argAddr := 0x0000#16, argData := 0x0000#16, bufidx := 0#9, cmderr := false, crcacc := 0xFFFF#16,
    txbuf := [], txlen := 0, rxbuf := [], rxlen := 0, rxexp := 0, rxstate := .idle, res := .cleared,
    txstream := [], rxfifo := Config.rxfifoAtReset, inputs := [], retval := 0x0000#16 }

/-- Why the machine stops with a fault. -/
inductive Fault where
  /-- Raised by RxByte when the byte's index is outside `RXBUF`. R35 says that no buffer access is ever outside, and
  `RXLEN < RXEXP ≤ 260` holds in every state a run reaches, so no run raises it. Safe: the machine stops where the spec
  has nothing to say (log entry 10). -/
  | bufferRange (index : Nat)
deriving DecidableEq, Repr

/-- Why a step has no meaning. -/
inductive Refusal where
  /-- Raised by `exec` for an instruction that the model gives no meaning yet, under its mnemonic in
  spec/opcode_table.json. Safe. No instruction is refused in this model. -/
  | notModelled (mnemonic : String)
deriving DecidableEq, Repr

end Sys2Proof.Machine
end

