-- ==== Sys2Proof/Machine/Ops.lean ====
section
/-! DEFINITION. The named operations over buffers and registers, and the recording of an outcome, which is the block's whole
notion of an exception (42_validator.md R97, 60_exceptions.md R110). There is no return from one (R111). -/

namespace Sys2Proof.Machine

/-! ### Buffers (20_memory.md R34, R35) -/

/-- One byte of a buffer. -/
def Memory.read : Memory → Nat → Byte
  | [], _ => Memory.unlisted
  | (k, c) :: m, i => if i = k then c else Memory.read m i

/-- One byte stored, the canonical form kept. -/
def Memory.write : Memory → Nat → Byte → Memory
  | [], i, b => if b = Memory.unlisted then [] else [(i, b)]
  | (k, c) :: m, i, b =>
    if i < k then
      if b = Memory.unlisted then (k, c) :: m else (i, b) :: (k, c) :: m
    else if i = k then
      if b = Memory.unlisted then m else (i, b) :: m
    else (k, c) :: Memory.write m i b

/-- `MemRead(SPACE:i, n)`, 00_scope.md section 8. -/
def Memory.readBytes (m : Memory) (i : Nat) : Nat → List Byte
  | 0 => []
  | n + 1 => m.read i :: m.readBytes (i + 1) n

/-- `MemWrite(SPACE:i, n, s)` with `n` the length of `s`. -/
def Memory.writeBytes (m : Memory) (i : Nat) : List Byte → Memory
  | [] => m
  | b :: s => (m.write i b).writeBytes (i + 1) s

/-- The canonical form of a buffer of `cap` bytes: indices strictly rising and below `cap`, no byte listed that equals an
unlisted one. `lo` is the least index that may come next. -/
def Memory.wfFrom (cap : Nat) : Nat → Memory → Bool
  | _, [] => true
  | lo, (k, c) :: m => decide (lo ≤ k) && decide (k < cap) && c != Memory.unlisted && Memory.wfFrom cap (k + 1) m

/-- The canonical form. -/
def Memory.wf (cap : Nat) (m : Memory) : Bool := Memory.wfFrom cap 0 m

/-- The request held in `TXBUF`, `TXBUF[0 .. TXLEN − 1]`. -/
def State.txBytes (s : State) : List Byte := s.txbuf.readBytes 0 s.txlen

/-- The reply bytes collected so far, `RXBUF[0 .. RXLEN − 1]`. -/
def State.rxBytes (s : State) : List Byte := s.rxbuf.readBytes 0 s.rxlen

/-! ### Updates -/

/-- A command was accepted: `CMDERR <- 0` (R66). -/
def State.accept (s : State) : State := { s with cmderr := false }

/-- A command is refused: `CMDERR <- 1` and nothing else (R66, R107). -/
def State.refuse (s : State) : State := { s with cmderr := true }

/-- `CRCACC <- v`. -/
def State.setCrcacc (s : State) (v : Word) : State := { s with crcacc := v }

/-- The operand registers, written by the host (R8). -/
def State.setOperands (s : State) (dev : Byte) (addr data : Word) : State :=
  { s with argDev := dev, argAddr := addr, argData := data }

/-- `MemWrite(TXBUF:0, 8, f); TXLEN <- 8` (R79, R81). -/
def State.setRequest (s : State) (f : List Byte) : State :=
  { s with txbuf := s.txbuf.writeBytes 0 f, txlen := Config.txCap }

/-- The nine outcome and diagnostic registers. -/
def State.setResults (s : State) (r : Results) : State := { s with res := r }

/-- `RXSTATE <- r`. -/
def State.setRxState (s : State) (r : RxState) : State := { s with rxstate := r }

/-- `LinkSend(f)` (R38): all of `f` in one step. -/
def State.linkSend (s : State) (f : List Byte) : State := { s with txstream := s.txstream ++ f }

/-- `RXFIFO` becomes `q`. -/
def State.setFifo (s : State) (q : List Byte) : State := { s with rxfifo := q }

/-- `RXLEN <- 0; RXEXP <- n` (R85); the bytes of `RXBUF` are not erased (R31). -/
def State.expect (s : State) (n : Nat) : State := { s with rxlen := 0, rxexp := n }

/-- `MemWrite(RXBUF:RXLEN, 1, [b]); RXLEN <- RXLEN + 1` (R88). -/
def State.storeRx (s : State) (b : Byte) : State :=
  { s with rxbuf := s.rxbuf.write s.rxlen b, rxlen := s.rxlen + 1 }

/-- The inputs still to come. -/
def State.setInputs (s : State) (l : List Input) : State := { s with inputs := l }

/-- The value returned to the caller. -/
def State.setRetval (s : State) (v : Word) : State := { s with retval := v }

/-! ### Recording an outcome (R97) -/

/-- The result of `decode`, named as in the source's reply classification (R91, R101). -/
inductive Reply where
  /-- `Ok`, with the declared payload length. -/
  | ok (len : Byte)
  /-- `WriteAck(address, value)`. -/
  | writeAck (addr val : Word)
  /-- `DeviceError(code)`. -/
  | deviceError (code : Byte)
  /-- `ChecksumMismatch`. -/
  | checksumMismatch
  /-- `Truncated`. -/
  | truncated
  /-- `Unexpected`. -/
  | unexpected
deriving DecidableEq, Repr

/-- The registers assigned on the path that ends in this outcome, and its code in `RESULT` (R91, R97): the meaning of
`raise` and `return`. -/
def Reply.record (r : Results) : Reply → Results
  | .ok len => { r with result := .ok, paylen := len }
  | .writeAck addr val => { r with result := .writeAck, ackaddr := addr, ackval := val }
  | .deviceError code =>
    { r with result := .deviceError, errcode := code, reqcrc := code == Config.errReqcrc }
  | .checksumMismatch => { r with result := .checksumMismatch }
  | .truncated => { r with result := .truncated }
  | .unexpected => { r with result := .unexpected }

/-- An outcome recorded in the state: the one shared operation by which every failure and every success of a reply reaches
`STATUS` and the diagnostic registers. Control goes nowhere (R110). -/
def State.record (s : State) (r : Reply) : State := s.setResults (r.record s.res)

/-- The reset event (R123): the block's own state takes the values of R33; `TXSTREAM` and `RXFIFO` keep theirs (R122), and so
do the model's own fields. -/
def State.resetBlock (s : State) : State :=
  { State.reset with txstream := s.txstream, rxfifo := s.rxfifo, inputs := s.inputs, retval := s.retval }

/-- A command (R66, R68): accepted, with `CMDERR <- 0` as part of it, where its precondition holds; refused otherwise. -/
def command (precondition : Bool) (effect : State → State) (s : State) : Host.Outcome State Fault Refusal :=
  if precondition then .next (effect s).accept else .next s.refuse

end Sys2Proof.Machine
end

