-- ==== Sys2Proof/Machine/Operands.lean ====
section
/-! DEFINITION. How a command reads its operands (10_state.md R14 to R16, 30_encoding.md R57, R62): every operand form there
is. `ARG_DATA` is read by four commands with four meanings. -/

namespace Sys2Proof.Machine

/-- CRC_BYTE: the input byte is `ARG_DATA[7:0]`; `ARG_DATA[15:8]` is ignored (R16, R73). -/
def State.crcOperand (s : State) : Byte := s.argData.extractLsb' 0 8

/-- ENC_READ and ENC_WRITE: the device address, `ARG_DEV[7:0]` (R14). -/
def State.devOperand (s : State) : Byte := s.argDev

/-- ENC_READ: the start address. ENC_WRITE: the register to write (R15). -/
def State.addrOperand (s : State) : Word := s.argAddr

/-- ENC_READ: the register count, any 16-bit value (R16, R80). -/
def State.countOperand (s : State) : Word := s.argData

/-- ENC_WRITE: the value to write (R16). -/
def State.valueOperand (s : State) : Word := s.argData

/-- XFER: the expected body length `EXPBODY`, the whole 16-bit number (R16, R85). -/
def State.expbody (s : State) : Nat := s.argData.toNat

/-- The fields of the request in `TXBUF` that CHECK compares with (R95): the function byte. -/
def State.reqFunction (s : State) : Byte := s.txbuf.read 1

/-- `u16be(TXBUF[2], TXBUF[3])` (R95). -/
def State.reqAddr (s : State) : Word := u16be (s.txbuf.read 2) (s.txbuf.read 3)

/-- `u16be(TXBUF[4], TXBUF[5])` (R95): the count of a read, the value of a write. -/
def State.reqData (s : State) : Word := u16be (s.txbuf.read 4) (s.txbuf.read 5)

end Sys2Proof.Machine
end

