-- ==== Sys2Proof/Machine/Flags.lean ====
section
/-! DEFINITION. The flags (10_state.md R10), the word `STATUS` (R17), and the preconditions of the commands (30_encoding.md R68). -/

namespace Sys2Proof.Machine

/-- `BUSY`, not stored: 1 exactly when `RXSTATE = RECEIVING` (R10, R17). -/
def State.busy (s : State) : Bool := s.rxstate == .receiving

/-- `TXVALID`, not stored: 1 exactly when `TXLEN = 8` (R10, R17). -/
def State.txvalid (s : State) : Bool := s.txlen == Config.txCap

/-- The code of `RESULT` in `STATUS[7:4]` (R17). -/
def ResultCode.code : ResultCode → BitVec 4
  | .none => 0
  | .ok => 1
  | .writeAck => 2
  | .deviceError => 3
  | .checksumMismatch => 4
  | .truncated => 5
  | .unexpected => 6

/-- The code of `CHK` in `STATUS[9:8]` (R17). -/
def CheckCode.code : CheckCode → BitVec 2
  | .none => 0
  | .pass => 1
  | .violation => 2

/-- A flag as a bit. -/
def flagBit (b : Bool) : BitVec 1 := BitVec.ofBool b

/-- `STATUS` (R17): bits [15:10] read 0, [9:8] `CHK`, [7:4] `RESULT`, [3] `REQCRC`, [2] `CMDERR`, [1] `TXVALID`, [0] `BUSY`. -/
def State.status (s : State) : Word :=
  0#6 ++ s.res.chk.code ++ s.res.result.code ++ flagBit s.res.reqcrc ++ flagBit s.cmderr ++ flagBit s.txvalid ++
    flagBit s.busy

/-- ENC_READ and ENC_WRITE are accepted when `BUSY = 0` (R68). -/
def State.mayEncode (s : State) : Bool := !s.busy

/-- DECODE is accepted when `BUSY = 0` (R68). -/
def State.mayDecode (s : State) : Bool := !s.busy

/-- XFER is accepted when `BUSY = 0`, `TXVALID = 1` and `ARG_DATA ≤ 256` (R68, R85). -/
def State.mayTransfer (s : State) : Bool := !s.busy && s.txvalid && decide (s.expbody ≤ Config.expbodyMax)

/-- `RESULT ∈ {OK, WRITE_ACK}`: a decoded normal reply (R68). -/
def State.normalReply (s : State) : Bool := s.res.result == .ok || s.res.result == .writeAck

/-- CHECK is accepted when `BUSY = 0`, `TXVALID = 1` and there is a decoded normal reply (R68, R95). -/
def State.mayCheck (s : State) : Bool := !s.busy && s.txvalid && s.normalReply

/-- `consistent` of R95. The product `2 * count` is on natural numbers (R74). -/
def State.consistent (s : State) : Bool :=
  match s.res.result with
  | .ok => s.reqFunction == Config.fcRead && s.res.paylen.toNat == 2 * s.reqData.toNat
  | .writeAck => s.reqFunction == Config.fcWrite && s.res.ackaddr == s.reqAddr && s.res.ackval == s.reqData
  | .none => false
  | .deviceError => false
  | .checksumMismatch => false
  | .truncated => false
  | .unexpected => false

end Sys2Proof.Machine
end

