-- ==== Sys2Proof/Machine/Crc.lean ====
section
/-! DEFINITION. The CRC unit (40_crc.md): the two host commands and the three pure functions as operations of their own. -/

namespace Sys2Proof.Machine

/-- CRC_INIT (R72): accepted always. -/
def execCrcInit (s : State) : Host.Outcome State Fault Refusal :=
  command true (fun s => s.setCrcacc Config.crcInit) s

/-- CRC_BYTE (R73): accepted always; `ARG_DATA` keeps its value. -/
def execCrcByteCmd (s : State) : Host.Outcome State Fault Refusal :=
  command true (fun s => s.setCrcacc (crcByte s.crcacc s.crcOperand)) s

/-- crc_round (R69): the result goes to the caller and to no register of the block (R11, log entry 3). -/
def execCrcRound (a : Word) (s : State) : Host.Outcome State Fault Refusal := .next (s.setRetval (crcRound a))

/-- crc_byte (R70): the result goes to the caller (log entry 3). -/
def execCrcByte (a : Word) (b : Byte) (s : State) : Host.Outcome State Fault Refusal := .next (s.setRetval (crcByte a b))

/-- crc16 (R71): the result goes to the caller (log entry 3). -/
def execCrc16 (bytes : List Byte) (s : State) : Host.Outcome State Fault Refusal := .next (s.setRetval (crc16 bytes))

end Sys2Proof.Machine
end

