-- ==== Sys2Proof/Machine/Framer.lean ====
section
/-! DEFINITION. The framer (41_framer.md) and the reserved codes. The framer transmits nothing. -/

namespace Sys2Proof.Machine

/-- The framer's work (R79, R81): six bytes, their checksum low byte first, `TXBUF` overwritten whole, `TXLEN <- 8`. -/
def State.buildRequest (s : State) (dev fn : Byte) (a v : Word) : State := s.setRequest (sealed (fieldsHead dev fn a v))

/-- NOP (R83): clears a refusal left by an earlier command, nothing else. -/
def execNop (s : State) : Host.Outcome State Fault Refusal := command true (fun s => s) s

/-- ENC_READ (R79): the count is not checked (R80). -/
def execEncRead (s : State) : Host.Outcome State Fault Refusal :=
  command s.mayEncode (fun s => s.buildRequest s.devOperand Config.fcRead s.addrOperand s.countOperand) s

/-- ENC_WRITE (R81). -/
def execEncWrite (s : State) : Host.Outcome State Fault Refusal :=
  command s.mayEncode (fun s => s.buildRequest s.devOperand Config.fcWrite s.addrOperand s.valueOperand) s

/-- CMD_RESERVED (R63): a reserved code is refused whatever its low bits are. -/
def execCmdReserved (_low : BitVec 3) (s : State) : Host.Outcome State Fault Refusal := command false (fun s => s) s

/-- READ_REQ (R52), log entry 4: the block has this frame built, which is `encode_read(dev, start, count)` of R67: the host
writes the three operand registers and launches ENC_READ. The checksum is the framer's own work (R79). -/
def execReadReq (dev : Byte) (start count _crc : Word) (s : State) : Host.Outcome State Fault Refusal :=
  command s.mayEncode (fun s => s.buildRequest dev Config.fcRead start count) (s.setOperands dev start count)

/-- WRITE_REQ (R53), log entry 4: `encode_write(dev, reg, val)` of R67. -/
def execWriteReq (dev : Byte) (reg val _crc : Word) (s : State) : Host.Outcome State Fault Refusal :=
  command s.mayEncode (fun s => s.buildRequest dev Config.fcWrite reg val) (s.setOperands dev reg val)

end Sys2Proof.Machine
end

