-- ==== Sys2Proof/Machine/Link.lean ====
section
/-! DEFINITION. The link (20_memory.md R38 to R40): what the device sends, and the four reply formats as frames that the
device sends (log entry 5). The validator's work on them is in Validator.lean. -/

namespace Sys2Proof.Machine

/-- The device sends the bytes `f`, in order: they join the tail of `RXFIFO`, whatever the block's state (R39). -/
def State.deviceSend (s : State) (f : List Byte) : State := s.setFifo (s.rxfifo ++ f)

/-- The transport discards the queue; possible only while `IDLE` (R40). -/
def State.linkFlush (s : State) : State := if s.busy then s else s.setFifo []

/-- ERROR_REPLY (R56): the device sends this frame. -/
def execErrorReply (dev : Byte) (func : BitVec 7) (code : Byte) (crc : Word) (s : State) :
    Host.Outcome State Fault Refusal :=
  .next (s.deviceSend (withCrc (errorHead dev func code) crc))

/-- READ_REPLY (R54): the device sends this frame. -/
def execReadReply (dev : Byte) (payload : List Byte) (crc : Word) (s : State) : Host.Outcome State Fault Refusal :=
  .next (s.deviceSend (withCrc (readReplyHead dev payload) crc))

/-- WRITE_REPLY (R55): the device sends this frame. -/
def execWriteReply (dev : Byte) (reg val crc : Word) (s : State) : Host.Outcome State Fault Refusal :=
  .next (s.deviceSend (withCrc (fieldsHead dev Config.fcWrite reg val) crc))

/-- UNKNOWN_REPLY (R60): the device sends this frame. -/
def execUnknownReply (dev func : Byte) (body : List Byte) (crc : Word) (s : State) : Host.Outcome State Fault Refusal :=
  .next (s.deviceSend (withCrc (unknownHead dev func body) crc))

end Sys2Proof.Machine
end

