-- ==== Sys2Proof/Machine/Validator.lean ====
section
/-! DEFINITION. The validator (42_validator.md): XFER, the receiver's two steps, `decode`, DECODE and CHECK. -/

namespace Sys2Proof.Machine

/-- Steps 4 to 7 of `decode` (R91), for a frame of 4 or more bytes whose checksum is right: by function byte, the error flag
first; inside each format short before long (R109). Lengths are natural numbers. -/
def classifyFrame (f : List Byte) : Reply :=
  if (byteAt f 1).getLsbD 7 then
    if f.length < 5 then .truncated
    else if 5 < f.length then .unexpected
    else .deviceError (byteAt f 2)
  else if byteAt f 1 = Config.fcRead then
    if f.length < 5 then .truncated
    else if f.length - 5 < (byteAt f 2).toNat then .truncated
    else if (byteAt f 2).toNat < f.length - 5 then .unexpected
    else .ok (byteAt f 2)
  else if byteAt f 1 = Config.fcWrite then
    if f.length < 8 then .truncated
    else if 8 < f.length then .unexpected
    else .writeAck (u16be (byteAt f 2) (byteAt f 3)) (u16be (byteAt f 4) (byteAt f 5))
  else .unexpected

/-- The checksum a frame carries, low byte first (R91 step 2, R93). -/
def crcReceived (f : List Byte) : Word := u16le (byteAt f (f.length - 2)) (byteAt f (f.length - 1))

/-- The checksum computed over all but the last two bytes (R91 step 2, R93). -/
def crcComputed (f : List Byte) : Word := crc16 (f.take (f.length - 2))

/-- The outcome of `decode` (R91): the first check that applies decides. -/
def classify (f : List Byte) : Reply :=
  if f.length < 2 then .truncated
  else if crcReceived f ≠ crcComputed f then .checksumMismatch
  else if f.length < 4 then .truncated
  else classifyFrame f

/-- The two checksum registers after `decode` (R24, R25): 0 for a frame too short to hold a checksum. -/
def checksumResults (f : List Byte) : Results :=
  if f.length < 2 then .cleared
  else { Results.cleared with crcrx := crcReceived f, crccalc := crcComputed f }

/-- `decode(f)` (R91, R97): all nine registers cleared, the checksums recorded, then the outcome. -/
def State.decodeFrame (s : State) (f : List Byte) : State := (s.setResults (checksumResults f)).record (classify f)

/-- What an accepted XFER does (R85): the request goes out whole, the receiver is armed, all results are cleared. -/
def State.transfer (s : State) : State :=
  (((s.linkSend s.txBytes).expect (s.expbody + 4)).setRxState .receiving).setResults .cleared

/-- The frame boundary (R88): at the expected length the frame is classified and the receiver returns to `IDLE`. -/
def State.completeReception (s : State) : State :=
  if s.rxlen = s.rxexp then (s.decodeFrame s.rxBytes).setRxState .idle else s

/-- `RESULT <- TRUNCATED` and `RXSTATE <- IDLE` (R89): `decode` is not run, the bytes received stay. -/
def State.timeOut (s : State) : State := (s.record .truncated).setRxState .idle

/-- XFER (R85). -/
def execXfer (s : State) : Host.Outcome State Fault Refusal := command s.mayTransfer State.transfer s

/-- RxByte (R88). Where it is not enabled the receiver takes no step (R87, log entry 2). -/
def execRxByte (s : State) : Host.Outcome State Fault Refusal :=
  if s.busy then
    match s.rxfifo with
    | [] => .next s
    | b :: q =>
      if s.rxlen < Config.rxCap then .next ((s.setFifo q).storeRx b).completeReception
      else .fault (.bufferRange s.rxlen)
  else .next s

/-- RxTimeout (R89): enabled while `RECEIVING` with `RXFIFO` empty (R40); otherwise no step is taken (log entry 2). -/
def execRxTimeout (s : State) : Host.Outcome State Fault Refusal :=
  if s.busy && s.rxfifo.isEmpty then .next s.timeOut else .next s

/-- decode (R91) as an operation of its own: the outcome of `bytes` is recorded (log entry 14). -/
def execDecode (bytes : List Byte) (s : State) : Host.Outcome State Fault Refusal := .next (s.decodeFrame bytes)

/-- DECODE (R92). -/
def execDecodeCmd (s : State) : Host.Outcome State Fault Refusal :=
  command s.mayDecode (fun s => s.decodeFrame s.rxBytes) s

/-- CHECK (R95): `CHK` alone is written; where it is refused `CHK` keeps its value. -/
def execCheck (s : State) : Host.Outcome State Fault Refusal :=
  command s.mayCheck
    (fun s => s.setResults { s.res with chk := if s.consistent then .pass else .violation }) s

end Sys2Proof.Machine
end

