-- ==== Sys2Proof/Machine/Dispatch.lean ====
section
/-! DEFINITION. One arm for each row of spec/opcode_table.json. -/

namespace Sys2Proof.Machine

def exec (i : Instr) (s : State) : Host.Outcome State Fault Refusal :=
  match i with
  | .nop => Sys2Proof.Machine.execNop s
  | .crcInit => Sys2Proof.Machine.execCrcInit s
  | .crcByteCmd => Sys2Proof.Machine.execCrcByteCmd s
  | .encRead => Sys2Proof.Machine.execEncRead s
  | .encWrite => Sys2Proof.Machine.execEncWrite s
  | .xfer => Sys2Proof.Machine.execXfer s
  | .decodeCmd => Sys2Proof.Machine.execDecodeCmd s
  | .check => Sys2Proof.Machine.execCheck s
  | .cmdReserved low => Sys2Proof.Machine.execCmdReserved low s
  | .readReq dev start count crc => Sys2Proof.Machine.execReadReq dev start count crc s
  | .writeReq dev reg val crc => Sys2Proof.Machine.execWriteReq dev reg val crc s
  | .errorReply dev func code crc => Sys2Proof.Machine.execErrorReply dev func code crc s
  | .readReply dev payload crc => Sys2Proof.Machine.execReadReply dev payload crc s
  | .writeReply dev reg val crc => Sys2Proof.Machine.execWriteReply dev reg val crc s
  | .unknownReply dev func body crc => Sys2Proof.Machine.execUnknownReply dev func body crc s
  | .crcRound a => Sys2Proof.Machine.execCrcRound a s
  | .crcByte a b => Sys2Proof.Machine.execCrcByte a b s
  | .crc16 bytes => Sys2Proof.Machine.execCrc16 bytes s
  | .rxByte => Sys2Proof.Machine.execRxByte s
  | .rxTimeout => Sys2Proof.Machine.execRxTimeout s
  | .decode bytes => Sys2Proof.Machine.execDecode bytes s

end Sys2Proof.Machine
end

