-- ==== Sys2Proof/WellFormed.lean ====
section
/-! DEFINITION. Which terms of `Instr` stand for something the spec describes. A frame carries its checksum as an operand, and
R51 asks that it be the checksum of all bytes before it. -/

namespace Sys2Proof

open Machine

/-- A function byte of neither reply format nor the error format: bit 7 clear, not 0x03, not 0x06 (R58, R60). -/
def unknownFunction (fn : Byte) : Bool :=
  !fn.getLsbD 7 && fn != Config.fcRead && fn != Config.fcWrite

/-- The well-formedness check, one line for each constructor. -/
def wellFormed : Instr → Bool
  | .nop => true
  | .crcInit => true
  | .crcByteCmd => true
  | .encRead => true
  | .encWrite => true
  | .xfer => true
  | .decodeCmd => true
  | .check => true
  | .cmdReserved _ => true
  | .readReq dev start count crc => crc == crc16 (fieldsHead dev Config.fcRead start count)
  | .writeReq dev reg val crc => crc == crc16 (fieldsHead dev Config.fcWrite reg val)
  | .errorReply dev func code crc => crc == crc16 (errorHead dev func code)
  -- `byte_len` is one byte (R54)
  | .readReply dev payload crc => decide (payload.length ≤ 255) && crc == crc16 (readReplyHead dev payload)
  | .writeReply dev reg val crc => crc == crc16 (fieldsHead dev Config.fcWrite reg val)
  | .unknownReply dev func body crc => unknownFunction func && crc == crc16 (unknownHead dev func body)
  | .crcRound _ => true
  | .crcByte _ _ => true
  | .crc16 _ => true
  | .rxByte => true
  | .rxTimeout => true
  -- the operand of `decode` has at most 260 bytes (R91)
  | .decode bytes => decide (bytes.length ≤ Config.rxCap)

/-- `i` is well formed. -/
abbrev WellFormed (i : Instr) : Prop := wellFormed i = true

end Sys2Proof
end

