-- ==== Sys2Proof/Decode.lean ====
section
/-! DEFINITION. Decoding, total on every 16-bit command and on every byte sequence, rejecting by name (30_encoding.md R58, R61
to R64), and the encoder written from the same formats. The formats are picked by the header alone, as R64 says; whether the
checksum is right is `WellFormed`'s question (R51) and `decode`'s (R91). -/

namespace Sys2Proof

open Machine

/-- Why a byte sequence is no frame of the formats of its direction. -/
inductive DecodeError where
  /-- Fewer bytes than a header and a checksum. -/
  | tooShort
  /-- Not the length that the format of this function code has (R51 to R56). -/
  | wrongLength
  /-- A request whose function code is neither 0x03 nor 0x06 (R58: the framer can produce no other value). -/
  | notARequest
deriving DecidableEq, Repr

/-- The operation a value written to `CMD` launches (R61, R62, R63): bits 15 to 4 are ignored. -/
def decodeCommand (v : Word) : Instr :=
  match (v.extractLsb' 0 4).toNat with
  | 0 => .nop
  | 1 => .crcInit
  | 2 => .crcByteCmd
  | 3 => .encRead
  | 4 => .encWrite
  | 5 => .xfer
  | 6 => .decodeCmd
  | 7 => .check
  | _ => .cmdReserved (v.extractLsb' 0 3)

/-- A frame from block to device: always 8 bytes, function code 0x03 or 0x06 (R52, R53, R58). -/
def decodeRequest : List Byte → Except DecodeError Instr
  | [dev, fn, a1, a0, v1, v0, c0, c1] =>
    if fn = Config.fcRead then .ok (.readReq dev (u16be a1 a0) (u16be v1 v0) (u16le c0 c1))
    else if fn = Config.fcWrite then .ok (.writeReq dev (u16be a1 a0) (u16be v1 v0) (u16le c0 c1))
    else .error .notARequest
  | _ => .error .wrongLength

/-- The checksum field of a frame: its last two bytes, low byte first (R42, R57). -/
def crcField (f : List Byte) : Word := u16le (byteAt f (f.length - 2)) (byteAt f (f.length - 1))

/-- A frame from device to block: the error flag is tested first, then 0x03, then 0x06; whatever is left is unknown
(R58, and `decode_order` 1 to 4 of the table). -/
def decodeReply (f : List Byte) : Except DecodeError Instr :=
  if f.length < 4 then .error .tooShort
  else if (byteAt f 1).getLsbD 7 then
    if f.length = 5 then
      .ok (.errorReply (byteAt f 0) ((byteAt f 1).extractLsb' 0 7) (byteAt f 2) (crcField f))
    else .error .wrongLength
  else if byteAt f 1 = Config.fcRead then
    if f.length = (byteAt f 2).toNat + 5 then
      .ok (.readReply (byteAt f 0) ((f.drop 3).take (byteAt f 2).toNat) (crcField f))
    else .error .wrongLength
  else if byteAt f 1 = Config.fcWrite then
    if f.length = 8 then
      .ok (.writeReply (byteAt f 0) (u16be (byteAt f 2) (byteAt f 3)) (u16be (byteAt f 4) (byteAt f 5)) (crcField f))
    else .error .wrongLength
  else .ok (.unknownReply (byteAt f 0) (byteAt f 1) ((f.drop 2).take (f.length - 4)) (crcField f))

/-- The decoder on whatever comes from outside. -/
def decodeCode : Code → Except DecodeError Instr
  | .command v => .ok (decodeCommand v)
  | .frame .toDevice f => decodeRequest f
  | .frame .toBlock f => decodeReply f

/-- The encoder: the `CMD` value with the ignored bits 0 (R62), or the frame's bytes (R52 to R56). The six operations that
no bit pattern selects have no encoding (R64). -/
def encode : Instr → Option Code
  | .nop => some (.command 0x0000#16)
  | .crcInit => some (.command 0x0001#16)
  | .crcByteCmd => some (.command 0x0002#16)
  | .encRead => some (.command 0x0003#16)
  | .encWrite => some (.command 0x0004#16)
  | .xfer => some (.command 0x0005#16)
  | .decodeCmd => some (.command 0x0006#16)
  | .check => some (.command 0x0007#16)
  | .cmdReserved low => some (.command (0#12 ++ 1#1 ++ low))
  | .readReq dev start count crc => some (.frame .toDevice (withCrc (fieldsHead dev Config.fcRead start count) crc))
  | .writeReq dev reg val crc => some (.frame .toDevice (withCrc (fieldsHead dev Config.fcWrite reg val) crc))
  | .errorReply dev func code crc => some (.frame .toBlock (withCrc (errorHead dev func code) crc))
  | .readReply dev payload crc => some (.frame .toBlock (withCrc (readReplyHead dev payload) crc))
  | .writeReply dev reg val crc => some (.frame .toBlock (withCrc (fieldsHead dev Config.fcWrite reg val) crc))
  | .unknownReply dev func body crc => some (.frame .toBlock (withCrc (unknownHead dev func body) crc))
  | .crcRound _ => none
  | .crcByte _ _ => none
  | .crc16 _ => none
  | .rxByte => none
  | .rxTimeout => none
  | .decode _ => none

/-- The byte of a frame at position `i` when the frame's bits are numbered as spec/opcode_table.json numbers them: the
header is `(byte 0 << 8) OR byte 1` (R64), so byte 1 is bits 7 to 0 and byte 0 is bits 15 to 8; the later bytes count on
(log entry 6). -/
def tableByte (w i : Nat) : Byte :=
  match i with
  | 0 => BitVec.ofNat 8 (w / 2 ^ 8)
  | 1 => BitVec.ofNat 8 w
  | i => BitVec.ofNat 8 (w / 2 ^ (8 * i))

/-- The length of the reply whose header and third byte these are (R54, R55, R56, R60). -/
def replyLength (fn len : Byte) : Nat :=
  if fn.getLsbD 7 then 5
  else if fn = Config.fcRead then len.toNat + 5
  else if fn = Config.fcWrite then 8
  else 4

/-- What the table's word `w` of `nbits` bits is: up to 16 bits a value written to `CMD`; 64 bits with a request's function
code a request; anything else a reply, as long as its format is, bits above `nbits` being 0 (log entry 6). -/
def codeOfTable (nbits w : Nat) : Code :=
  if nbits ≤ 16 then .command (BitVec.ofNat 16 w)
  else
    let fn := tableByte w 1
    if nbits = 64 ∧ (fn = Config.fcRead ∨ fn = Config.fcWrite) then
      .frame .toDevice ((List.range 8).map (tableByte w))
    else
      .frame .toBlock ((List.range (max ((nbits + 7) / 8) (replyLength fn (tableByte w 2)))).map (tableByte w))

/-- The instruction the decoder reads from the table's word, `none` where it refuses. -/
def decodeTableWord (nbits w : Nat) : Option Instr := (decodeCode (codeOfTable nbits w)).toOption

end Sys2Proof
end

