-- ==== Sys2Proof/Machine/HostRegs.lean ====
section
/-! DEFINITION. The host's two accesses by register number (10_state.md R12 to R29), all but the launch of a command. -/

namespace Sys2Proof.Machine

/-- The window on `TXBUF` (R20): 0 at and beyond `TXLEN`. -/
def State.txWindow (s : State) : Byte :=
  if s.bufidx.toNat < s.txlen then s.txbuf.read s.bufidx.toNat else 0#8

/-- The window on `RXBUF` (R21): 0 at and beyond `RXLEN`. -/
def State.rxWindow (s : State) : Byte :=
  if s.bufidx.toNat < s.rxlen then s.rxbuf.read s.bufidx.toNat else 0#8

/-- `HostRead(r)` (R12): a register narrower than 16 bits has zeros on top; `CMD` and every number above 0x10 read 0. -/
def State.readRegister (s : State) (r : Nat) : Word :=
  match r with
  | 0x01 => s.argDev.setWidth 16
  | 0x02 => s.argAddr
  | 0x03 => s.argData
  | 0x04 => s.status
  | 0x05 => s.crcacc
  | 0x06 => s.bufidx.setWidth 16
  | 0x07 => s.txWindow.setWidth 16
  | 0x08 => s.rxWindow.setWidth 16
  | 0x09 => (BitVec.ofNat 9 s.rxlen).setWidth 16
  | 0x0A => (BitVec.ofNat 9 s.rxexp).setWidth 16
  | 0x0B => s.res.crcrx
  | 0x0C => s.res.crccalc
  | 0x0D => s.res.errcode.setWidth 16
  | 0x0E => s.res.paylen.setWidth 16
  | 0x0F => s.res.ackaddr
  | 0x10 => s.res.ackval
  | _ => 0#16

/-- `HostWrite(r, v)` for every register but `CMD` (R12): a write keeps the register's own bits of `v`; a read-only register
and every number above 0x10 ignore it. -/
def State.writeRegister (s : State) (r : Nat) (v : Word) : State :=
  match r with
  | 0x01 => { s with argDev := v.setWidth 8 }
  | 0x02 => { s with argAddr := v }
  | 0x03 => { s with argData := v }
  | 0x06 => { s with bufidx := v.setWidth 9 }
  | _ => s

end Sys2Proof.Machine
end

