-- ==== Sys2Proof/Machine/Inputs.lean ====
section
/-! DEFINITION. What an input stands for (00_scope.md R6): an operation of the table, or a step that is none. -/

namespace Sys2Proof.Machine

/-- The number of register `CMD` (R12, R13). -/
def cmdRegister : Nat := 0x00

/-- The operation that an input launches, if it launches one: a write to `CMD` the operation whose code it holds (R13), the
receiver's turn RxByte (R88), the link's silence RxTimeout (R89), a whole frame the row of its format. -/
def Input.operation : Input → Option Instr
  | .hostWrite r v => if r = cmdRegister then some (decodeCommand v) else none
  | .hostRead _ => none
  | .deviceSend _ => none
  | .receive => some .rxByte
  | .linkTimeout => some .rxTimeout
  | .linkFlush => none
  | .reset => none
  | .frame .toDevice f => (decodeRequest f).toOption
  | .frame .toBlock f => (decodeReply f).toOption

/-- The effect of an input that launches no operation. A frame towards the block that fits no format is sent all the same
(R39); one towards the device that is no request cannot be built and is passed over (R58, log entry 2). -/
def Input.plainEffect (e : Input) (s : State) : State :=
  match e with
  | .hostWrite r v => s.writeRegister r v
  | .hostRead r => s.setRetval (s.readRegister r)
  | .deviceSend b => s.deviceSend [b]
  | .receive => s
  | .linkTimeout => s
  | .linkFlush => s.linkFlush
  | .reset => s.resetBlock
  | .frame .toDevice _ => s
  | .frame .toBlock f => s.deviceSend f

/-- The input that presents a value written to `CMD`, or a frame. -/
def Input.ofCode : Code → Input
  | .command v => .hostWrite cmdRegister v
  | .frame dir f => .frame dir f

end Sys2Proof.Machine
end

