-- ==== Sys2Proof/Machine/Step.lean ====
section
/-! DEFINITION. One step of the whole system: the agent that comes next moves (20_memory.md R47), and the operation it launches,
if any, runs to completion within the step (10_state.md R13). -/

namespace Sys2Proof.Machine

/-- An input that comes next, in a state from whose list it has been taken. -/
def runInput (e : Input) (s : State) : Host.Outcome State Fault Refusal :=
  match e.operation with
  | some i => exec i s
  | none => .next (e.plainEffect s)

/-- One step. With no input left it is the receiver's turn (R88, log entry 1). -/
def step (s : State) : Host.Outcome State Fault Refusal :=
  match s.inputs with
  | [] => exec .rxByte s
  | e :: rest => runInput e (s.setInputs rest)

/-- The state in which the table's word comes next: as the next input, before those already there (log entry 6). -/
def State.withFetchWord (s : State) (nbits w : Nat) : State :=
  s.setInputs (Input.ofCode (codeOfTable nbits w) :: s.inputs)

end Sys2Proof.Machine
end

