-- ==== Sys2Proof/Safety.lean ====
section
/-! DEFINITION. What claims about the block are stated in: the invariant of the reachable states and what a safe run is. -/

namespace Sys2Proof.Machine

/-- The registers that `decode(f)` leaves (R91, R97). -/
def decodeResults (f : List Byte) : Results := (classify f).record (checksumResults f)

/-- What holds of the block in every state that a run from reset reaches. -/
structure Inv (s : State) : Prop where
  /-- `TXBUF` is in canonical form, inside its 8 bytes (R35). -/
  txBuffer : s.txbuf.wf Config.txCap = true
  /-- `RXBUF` is in canonical form, inside its 260 bytes (R35). -/
  rxBuffer : s.rxbuf.wf Config.rxCap = true
  /-- `TXLEN ∈ {0, 8}` (R30). -/
  txLength : s.txlen = 0 ∨ s.txlen = 8
  /-- A request held is a frame with function code 0x03 or 0x06 whose checksum is right (R58, R82). -/
  request : s.txlen = 8 →
    checksumValid s.txBytes = true ∧ (s.reqFunction = Config.fcRead ∨ s.reqFunction = Config.fcWrite)
  /-- No more bytes than expected are ever held (R9, R35). -/
  rxLength : s.rxlen ≤ s.rxexp
  /-- `RXEXP` is 0 before the first XFER and 4 to 260 after any (R23). -/
  rxExpected : s.rxexp = 0 ∨ (4 ≤ s.rxexp ∧ s.rxexp ≤ Config.rxCap)
  /-- In `RECEIVING`: a byte is still missing (R89), there is a request (R49), and nothing is recorded yet (R17, R85). -/
  receiving : s.rxstate = .receiving → s.rxlen < s.rxexp ∧ s.txlen = 8 ∧ s.res = .cleared
  /-- In `IDLE`, apart from `CHK`: nothing is recorded, or a timeout is, or what `decode` makes of the bytes held (R97). -/
  outcome : s.rxstate = .idle →
    { s.res with chk := .none } = Results.cleared ∨
    { s.res with chk := .none } = Reply.truncated.record .cleared ∨
    { s.res with chk := .none } = decodeResults s.rxBytes
  /-- CHECK has run only on a normal reply (R17, R95). -/
  checked : s.res.chk ≠ .none → s.normalReply = true

/-- A run from `s` is safe: however long it goes on, it meets neither a fault nor a refusal (R35, R113). -/
def Safe (s : State) : Prop := ∀ k, ∃ t, Host.Core.run core k s = .next t

/-- The bytes that the device sends in an input (R39). -/
def Input.sent : Input → List Byte
  | .hostWrite _ _ => []
  | .hostRead _ => []
  | .deviceSend b => [b]
  | .receive => []
  | .linkTimeout => []
  | .linkFlush => []
  | .reset => []
  | .frame .toDevice _ => []
  | .frame .toBlock f => f

/-- The input that comes next: the receiver's turn where none is left. -/
def State.nextInput (s : State) : Input := s.inputs.headD .receive

/-- The bit-serial form of R75: the bits of `b` one per round, bit 0 first. -/
def crcBitSerial (a : Word) (b : Byte) : Word :=
  (List.range 8).foldl
    (fun a i => (a >>> 1) ^^^ (if (a.getLsbD 0).xor (b.getLsbD i) then 0xA001#16 else 0x0000#16)) a

/-- The sequence `f` with bit `k` of byte `i` inverted. -/
def flipBit (f : List Byte) (i k : Nat) : List Byte := f.set i (byteAt f i ^^^ (1#8 <<< k))

/-- The causes for which R107 says a command is refused, for the value `v` written to `CMD`. -/
def RefusalCause (v : Word) (s : State) : Prop :=
  let op := (v.extractLsb' 0 4).toNat
  8 ≤ op ∨
  ((op = 3 ∨ op = 4 ∨ op = 5 ∨ op = 6 ∨ op = 7) ∧ s.rxstate = .receiving) ∨
  (op = 5 ∧ (s.txlen ≠ 8 ∨ 256 < s.argData.toNat)) ∨
  (op = 7 ∧ (s.txlen ≠ 8 ∨ ¬ (s.res.result = .ok ∨ s.res.result = .writeAck)))

/-- Two states that differ at most in buffer bytes outside the valid lengths (R21, R30, R31). -/
structure SameVisible (s t : State) : Prop where
  /-- Every register and the link agree. -/
  rest : { s with txbuf := [], rxbuf := [] } = { t with txbuf := [], rxbuf := [] }
  /-- The request agrees. -/
  tx : s.txBytes = t.txBytes
  /-- The bytes received agree. -/
  rx : s.rxBytes = t.rxBytes

end Sys2Proof.Machine
end

