-- ==== Sys2Proof/Certificates/Slice0/Obligations.lean ====
section
/-! DEFINITION. The statements for the provers. Each docstring names the rule it formalises; where a clause rests on a choice of
the model, it names the log entry. -/

open Sys2Proof Sys2Proof.Machine

/-! ### The checksum -/

/-- R69: one shift round, with the corner cases of the rule; result bit 15 is the old bit 0. -/
def Obligations.CrcRoundTestsTheLowBitThenShifts : Prop :=
  (∀ a : Word, crcRound a = if a.getLsbD 0 then (a >>> 1) ^^^ 0xA001#16 else a >>> 1) ∧
  (∀ a : Word, (crcRound a).getLsbD 15 = a.getLsbD 0) ∧
  crcRound 0x0000#16 = 0x0000#16 ∧ crcRound 0x0001#16 = 0xA001#16 ∧ crcRound 0xFFFF#16 = 0xDFFE#16 ∧
  crcRound 0x8000#16 = 0x4000#16 ∧ crcRound 0xFFFE#16 = 0x7FFF#16

/-- R71 with R70: `crc16` starts at 0xFFFF, absorbs the bytes in index order, each XORed into the low byte and followed by
eight rounds, and ends at the accumulator; it composes over concatenation. -/
def Obligations.Crc16AbsorbsBytesInOrder : Prop :=
  crc16 [] = 0xFFFF#16 ∧
  (∀ (s : List Byte) (b : Byte), crc16 (s ++ [b]) = crcByte (crc16 s) b) ∧
  (∀ (a : Word) (b : Byte), crcByte a b =
    crcRound (crcRound (crcRound (crcRound (crcRound (crcRound (crcRound (crcRound (a ^^^ b.setWidth 16)))))))) ) ∧
  (∀ s t : List Byte, crc16 (s ++ t) = t.foldl crcByte (crc16 s)) ∧
  crcByte 0x0000#16 0x00#8 = 0x0000#16 ∧ crc16 [0x01#8, 0x03#8] ≠ crc16 [0x03#8, 0x01#8] ∧
  crc16 [0x00#8] = 0x40BF#16 ∧ crc16 [0xFF#8] = 0x00FF#16 ∧
  crc16 [0x31#8, 0x32#8, 0x33#8, 0x34#8, 0x35#8, 0x36#8, 0x37#8, 0x38#8, 0x39#8] = 0x4B37#16

/-- R75: the byte-at-a-time form equals the bit-serial form on every accumulator and byte. -/
def Obligations.CrcByteEqualsBitSerialForm : Prop :=
  ∀ (a : Word) (b : Byte), crcByte a b = crcBitSerial a b

/-- R76: the residue of a sequence followed by its checksum, low byte first, is 0; no other two bytes give 0; so the
validator's test is "crc16 of the whole frame = 0"; and the byte order matters. -/
def Obligations.ChecksumResidueIsZero : Prop :=
  (∀ d : List Byte, crc16 (d ++ le16 (crc16 d)) = 0x0000#16) ∧
  (∀ (d : List Byte) (x y : Byte), crc16 (d ++ [x, y]) = 0x0000#16 → [x, y] = le16 (crc16 d)) ∧
  (∀ f : List Byte, 2 ≤ f.length → (crcReceived f = crcComputed f ↔ crc16 f = 0x0000#16)) ∧
  (∃ d : List Byte, crc16 (d ++ be16 (crc16 d)) ≠ 0x0000#16)

/-- R77: absorbing a fixed byte is a bijection on the accumulators. -/
def Obligations.CrcByteIsBijective : Prop :=
  ∀ b : Byte, Function.Bijective (fun a : Word => crcByte a b)

/-- R77: two sequences of equal length that differ in exactly one bit have different checksums; so one flipped bit anywhere in a
frame whose checksum is right (checksum field included, V3.16) makes `decode` answer `ChecksumMismatch`; several flipped bits
may go undetected (V3.17). -/
def Obligations.SingleBitFlipIsAlwaysDetected : Prop :=
  (∀ (s : List Byte) (i k : Nat), i < s.length → k < 8 → crc16 (flipBit s i k) ≠ crc16 s) ∧
  (∀ (f : List Byte) (i k : Nat), 2 ≤ f.length → crcReceived f = crcComputed f → i < f.length → k < 8 →
    classify (flipBit f i k) = .checksumMismatch) ∧
  (∃ f g : List Byte, f.length = g.length ∧ f ≠ g ∧ crc16 f = crc16 g)

/-- The three pure functions as operations of their own (R69, R70, R71): total, no register of the block written. That the
result is handed to the caller through `retval` is the model's choice, log entry 3. -/
def Obligations.CrcFunctionsReturnTheirResultOnly : Prop :=
  (∀ (a : Word) (s : State), exec (.crcRound a) s = .next { s with retval := crcRound a }) ∧
  (∀ (a : Word) (b : Byte) (s : State), exec (.crcByte a b) s = .next { s with retval := crcByte a b }) ∧
  (∀ (d : List Byte) (s : State), exec (.crc16 d) s = .next { s with retval := crc16 d })

/-- R72: CRC_INIT, `CMD` code 1, accepted always, writes `CRCACC` and `CMDERR` and nothing else. -/
def Obligations.CrcInitSetsTheAccumulator : Prop :=
  (∀ v : Word, v.extractLsb' 0 4 = 1#4 → decodeCommand v = .crcInit) ∧
  (∀ s : State, exec .crcInit s = .next { s with crcacc := 0xFFFF#16, cmderr := false })

/-- R73: CRC_BYTE, `CMD` code 2, accepted always, absorbs `ARG_DATA[7:0]` into `CRCACC`, clears `CMDERR`, and writes nothing else. -/
def Obligations.CrcByteCommandAbsorbsTheLowByte : Prop :=
  (∀ v : Word, v.extractLsb' 0 4 = 2#4 → decodeCommand v = .crcByteCmd) ∧
  (∀ s : State, exec .crcByteCmd s =
    .next { s with crcacc := crcByte s.crcacc (s.argData.extractLsb' 0 8), cmderr := false })

/-- R67 and R73: the host's expansion of `crc16(d)`, CRC_INIT and then for each byte a write of `ARG_DATA` and CRC_BYTE, leaves
`crc16(d)` in `CRCACC`, also while a transaction is in flight, and touches neither buffer, results, receiver nor link. -/
def Obligations.HostDrivenChecksumIsCrc16 : Prop :=
  ∀ (s : State) (d : List Byte) (rest : List Input),
    s.inputs = .hostWrite 0x00 0x0001#16 ::
      (d.flatMap (fun b => [.hostWrite 0x03 (b.setWidth 16), .hostWrite 0x00 0x0002#16]) ++ rest) →
    ∃ w : Word, Host.Core.run core (2 * d.length + 1) s =
      .next { s with crcacc := crc16 d, cmderr := false, argData := w, inputs := rest }

/-- R18: `CRCACC` is written only by CRC_INIT and CRC_BYTE, over all operations; a step changes it only through those two
commands or a reset. -/
def Obligations.OnlyCrcCommandsWriteTheAccumulator : Prop :=
  (∀ (i : Instr) (s t : State), exec i s = .next t → t.crcacc ≠ s.crcacc → i = .crcInit ∨ i = .crcByteCmd) ∧
  (∀ s t : State, step s = .next t → t.crcacc ≠ s.crcacc →
    s.nextInput = .reset ∨
    ∃ v : Word, s.nextInput = .hostWrite 0x00 v ∧ (v.extractLsb' 0 4 = 1#4 ∨ v.extractLsb' 0 4 = 2#4))

/-! ### Commands: acceptance and refusal -/

/-- R83: NOP, `CMD` code 0, clears `CMDERR` and does nothing else. -/
def Obligations.NopOnlyClearsCmderr : Prop :=
  (∀ v : Word, v.extractLsb' 0 4 = 0#4 → decodeCommand v = .nop) ∧
  (∀ s : State, exec .nop s = .next { s with cmderr := false })

/-- R63: a value whose bit 3 is 1, written to `CMD`, is refused: `CMDERR <- 1` and nothing else changes. -/
def Obligations.ReservedCodeSetsCmderrOnly : Prop :=
  ∀ (v : Word) (s : State), v.getLsbD 3 = true →
    (∃ low : BitVec 3, decodeCommand v = .cmdReserved low ∧
      exec (.cmdReserved low) s = .next { s with cmderr := true })

/-- R66, R68, R107: every write to `CMD` answers a next state; it is refused, with `CMDERR <- 1` and no other change, exactly
for the causes of R107, and otherwise accepted, with `CMDERR = 0`. -/
def Obligations.CommandIsRefusedExactlyForItsCauses : Prop :=
  ∀ (v : Word) (s : State),
    (RefusalCause v s → exec (decodeCommand v) s = .next { s with cmderr := true }) ∧
    (¬ RefusalCause v s → ∃ t, exec (decodeCommand v) s = .next t ∧ t.cmderr = false)

/-- R13, R61: the operation launched depends on bits 3 to 0 alone; R62: the eight codes. -/
def Obligations.CommandCodeIsTheLowFourBits : Prop :=
  (∀ v w : Word, v.extractLsb' 0 4 = w.extractLsb' 0 4 → decodeCommand v = decodeCommand w) ∧
  (∀ x : BitVec 12,
    decodeCommand (x ++ 0#4) = .nop ∧ decodeCommand (x ++ 1#4) = .crcInit ∧ decodeCommand (x ++ 2#4) = .crcByteCmd ∧
    decodeCommand (x ++ 3#4) = .encRead ∧ decodeCommand (x ++ 4#4) = .encWrite ∧ decodeCommand (x ++ 5#4) = .xfer ∧
    decodeCommand (x ++ 6#4) = .decodeCmd ∧ decodeCommand (x ++ 7#4) = .check)

/-- R8: no command writes an operand register; nor does one write `BUFIDX` (R19). -/
def Obligations.CommandsKeepOperandRegisters : Prop :=
  ∀ (v : Word) (s t : State), exec (decodeCommand v) s = .next t →
    t.argDev = s.argDev ∧ t.argAddr = s.argAddr ∧ t.argData = s.argData ∧ t.bufidx = s.bufidx

/-- R46: CRC_INIT, ENC_READ, ENC_WRITE, DECODE and CHECK are idempotent; CRC_BYTE and XFER are not. -/
def Obligations.FiveCommandsAreIdempotent : Prop :=
  (∀ (i : Instr) (s t : State),
    (i = .crcInit ∨ i = .encRead ∨ i = .encWrite ∨ i = .decodeCmd ∨ i = .check) →
    Inv s → exec i s = .next t → exec i t = .next t) ∧
  (∃ s t : State, exec .crcByteCmd s = .next t ∧ exec .crcByteCmd t ≠ .next t) ∧
  (∃ s t : State, exec .xfer s = .next t ∧ exec .xfer t ≠ .next t)

/-- R109: the commands accepted during reception (NOP, CRC_INIT, CRC_BYTE) commute with the receiver's two steps. -/
def Obligations.CrcCommandsCommuteWithReceiver : Prop :=
  ∀ (i j : Instr) (s a b c : State),
    (i = .nop ∨ i = .crcInit ∨ i = .crcByteCmd) → (j = .rxByte ∨ j = .rxTimeout) →
    exec i s = .next a → exec j a = .next b → exec j s = .next c → exec i c = .next b

/-! ### The framer -/

/-- R79: ENC_READ, `CMD` code 3, in `IDLE` builds the eight bytes in `TXBUF`, sets `TXLEN` and clears `CMDERR`, and writes nothing else: no
other register, no byte of `RXBUF`, nothing on the link. While `BUSY = 1` it is refused. -/
def Obligations.EncReadBuildsTheReadRequest : Prop :=
  (∀ v : Word, v.extractLsb' 0 4 = 3#4 → decodeCommand v = .encRead) ∧
  (∀ s : State, Inv s →
    (s.rxstate = .idle → ∃ t : State, exec .encRead s = .next t ∧
      t = { s with txbuf := t.txbuf, txlen := 8, cmderr := false } ∧
      (let h : List Byte := [s.argDev, 0x03#8, s.argAddr.extractLsb' 8 8, s.argAddr.extractLsb' 0 8,
          s.argData.extractLsb' 8 8, s.argData.extractLsb' 0 8]
       t.txBytes = h ++ [(crc16 h).extractLsb' 0 8, (crc16 h).extractLsb' 8 8]) ∧
      (∀ a, 8 ≤ a → t.txbuf.read a = s.txbuf.read a)) ∧
    (s.rxstate = .receiving → exec .encRead s = .next { s with cmderr := true }))

/-- R81: ENC_WRITE, `CMD` code 4, likewise. -/
def Obligations.EncWriteBuildsTheWriteRequest : Prop :=
  (∀ v : Word, v.extractLsb' 0 4 = 4#4 → decodeCommand v = .encWrite) ∧
  (∀ s : State, Inv s →
    (s.rxstate = .idle → ∃ t : State, exec .encWrite s = .next t ∧
      t = { s with txbuf := t.txbuf, txlen := 8, cmderr := false } ∧
      (let h : List Byte := [s.argDev, 0x06#8, s.argAddr.extractLsb' 8 8, s.argAddr.extractLsb' 0 8,
          s.argData.extractLsb' 8 8, s.argData.extractLsb' 0 8]
       t.txBytes = h ++ [(crc16 h).extractLsb' 0 8, (crc16 h).extractLsb' 8 8]) ∧
      (∀ a, 8 ≤ a → t.txbuf.read a = s.txbuf.read a)) ∧
    (s.rxstate = .receiving → exec .encWrite s = .next { s with cmderr := true }))

/-- R82: every frame the framer builds has a right checksum and residue 0; `decode` of a built write request is its
acknowledge; `decode` of a built read request takes the high byte of the start address as `byte_len`. -/
def Obligations.BuiltRequestsSatisfyTheFrameInvariant : Prop :=
  (∀ (i : Instr) (s t : State), (i = .encRead ∨ i = .encWrite) → Inv s → s.rxstate = .idle → exec i s = .next t →
    u16le (t.txbuf.read 6) (t.txbuf.read 7) = crc16 (t.txbuf.readBytes 0 6) ∧
    crc16 (t.txbuf.readBytes 0 8) = 0x0000#16) ∧
  (∀ s t : State, Inv s → s.rxstate = .idle → exec .encWrite s = .next t →
    classify t.txBytes = .writeAck s.argAddr s.argData) ∧
  (∀ s t : State, Inv s → s.rxstate = .idle → exec .encRead s = .next t →
    classify t.txBytes =
      if s.argAddr.extractLsb' 8 8 = 3#8 then .ok 3#8
      else if (s.argAddr.extractLsb' 8 8).toNat < 3 then .unexpected else .truncated)

/-- The wire formats READ_REQ and WRITE_REQ (R52, R53) as operations. What it means for one of them to happen, the host's
`encode_read` or `encode_write` of R67, is the model's choice, log entry 4: the operand registers take the frame's fields, and
in `IDLE` a well-formed frame is built in `TXBUF` byte for byte; while `BUSY = 1` the command is refused. -/
def Obligations.RequestFramesAreBuiltInTxbuf : Prop :=
  ∀ (dev : Byte) (a v crc : Word) (i : Instr) (f : List Byte) (s : State),
    (i = .readReq dev a v crc ∨ i = .writeReq dev a v crc) → WellFormed i → encode i = some (.frame .toDevice f) → Inv s →
    (s.rxstate = .idle → ∃ t : State, exec i s = .next t ∧
      t = { s with argDev := dev, argAddr := a, argData := v, txbuf := t.txbuf, txlen := 8, cmderr := false } ∧
      t.txBytes = f ∧ (∀ k, 8 ≤ k → t.txbuf.read k = s.txbuf.read k)) ∧
    (s.rxstate = .receiving →
      exec i s = .next { s with argDev := dev, argAddr := a, argData := v, cmderr := true })

/-! ### The link -/

/-- The four reply formats (R54, R55, R56, R60) as operations: the device sends the frame's bytes, which join the tail of
`RXFIFO` in transmission order, whatever the block's state (R39); nothing else changes. That a whole frame comes in one step is
the model's choice, log entry 5. -/
def Obligations.ReplyFramesJoinTheReceiveQueue : Prop :=
  (∀ (dev : Byte) (func : BitVec 7) (code : Byte) (crc : Word) (s : State),
    exec (.errorReply dev func code crc) s = .next { s with rxfifo := s.rxfifo ++
      [dev, 1#1 ++ func, code, crc.extractLsb' 0 8, crc.extractLsb' 8 8] }) ∧
  (∀ (dev : Byte) (payload : List Byte) (crc : Word) (s : State),
    exec (.readReply dev payload crc) s = .next { s with rxfifo := s.rxfifo ++
      ([dev, 0x03#8, BitVec.ofNat 8 payload.length] ++ payload ++ [crc.extractLsb' 0 8, crc.extractLsb' 8 8]) }) ∧
  (∀ (dev : Byte) (reg val crc : Word) (s : State),
    exec (.writeReply dev reg val crc) s = .next { s with rxfifo := s.rxfifo ++
      [dev, 0x06#8, reg.extractLsb' 8 8, reg.extractLsb' 0 8, val.extractLsb' 8 8, val.extractLsb' 0 8,
        crc.extractLsb' 0 8, crc.extractLsb' 8 8] }) ∧
  (∀ (dev func : Byte) (body : List Byte) (crc : Word) (s : State),
    exec (.unknownReply dev func body crc) s = .next { s with rxfifo := s.rxfifo ++
      ([dev, func] ++ body ++ [crc.extractLsb' 0 8, crc.extractLsb' 8 8]) })

/-- R39 and R40: a byte the device sends joins the tail of `RXFIFO`; `LinkFlush` empties it in `IDLE`. That a flush asked for in
`RECEIVING`, where R40 does not enable it, is passed over is the model's choice, log entry 2. -/
def Obligations.EnvironmentStepsTouchTheQueueOnly : Prop :=
  ∀ (s : State) (l : List Input),
    (∀ b : Byte, s.inputs = .deviceSend b :: l → step s = .next { s with rxfifo := s.rxfifo ++ [b], inputs := l }) ∧
    (s.inputs = .linkFlush :: l → s.rxstate = .idle → step s = .next { s with rxfifo := [], inputs := l }) ∧
    (s.inputs = .linkFlush :: l → s.rxstate = .receiving → step s = .next { s with inputs := l })

/-- R47 item 3: the bytes held and the bytes waiting, in order, are those that were held and waiting before, followed by what the
device has sent: in `RECEIVING` no step but a reset reorders, drops or duplicates one. -/
def Obligations.ArrivalOrderIsKept : Prop :=
  ∀ s t : State, Inv s → s.rxstate = .receiving → s.nextInput ≠ .reset → step s = .next t →
    t.rxBytes ++ t.rxfifo = s.rxBytes ++ s.rxfifo ++ s.nextInput.sent

/-- R47 item 1 and R49: while a transaction is in flight the block sends nothing, and no step but a reset changes the request. -/
def Obligations.HalfDuplexAndRequestKept : Prop :=
  ∀ s t : State, s.rxstate = .receiving → step s = .next t →
    t.txstream = s.txstream ∧ (s.nextInput ≠ .reset → t.txbuf = s.txbuf ∧ t.txlen = s.txlen)

/-- R38, R84 and R99: a byte enters `TXSTREAM` only through an accepted XFER, which appends the eight bytes of `TXBUF`; in `IDLE`
the waiting bytes change only by what the device sends or by a flush. -/
def Obligations.OnlyXferSendsAndIdlePullsNothing : Prop :=
  ∀ s t : State, step s = .next t →
    (t.txstream = s.txstream ∨
      ((∃ v : Word, s.nextInput = .hostWrite 0x00 v ∧ v.extractLsb' 0 4 = 5#4) ∧ s.rxstate = .idle ∧ s.txlen = 8 ∧
        t.txstream = s.txstream ++ s.txbuf.readBytes 0 8)) ∧
    (s.rxstate = .idle → t.rxfifo = s.rxfifo ++ s.nextInput.sent ∨ (s.nextInput = .linkFlush ∧ t.rxfifo = []))

/-! ### The validator: the transaction -/

/-- R85: XFER, `CMD` code 5. Accepted: the request goes out whole, the receiver is armed for `ARG_DATA + 4` bytes, all outcome and diagnostic
registers are cleared, and `TXBUF`, `CRCACC`, the operand registers, the bytes of `RXBUF` and the waiting bytes are unchanged.
Otherwise refused, and nothing is sent. -/
def Obligations.XferSendsTheRequestAndArmsTheReceiver : Prop :=
  (∀ v : Word, v.extractLsb' 0 4 = 5#4 → decodeCommand v = .xfer) ∧
  (∀ s : State,
    (s.rxstate = .idle ∧ s.txlen = 8 ∧ s.argData.toNat ≤ 256 →
      exec .xfer s = .next
        { s with
          txstream := s.txstream ++ s.txbuf.readBytes 0 8
          rxlen := 0
          rxexp := s.argData.toNat + 4
          rxstate := .receiving
          cmderr := false
          res :=
            { result := .none, chk := .none, reqcrc := false
              crcrx := 0#16, crccalc := 0#16, errcode := 0#8
              paylen := 0#8, ackaddr := 0#16, ackval := 0#16 } }) ∧
    (¬ (s.rxstate = .idle ∧ s.txlen = 8 ∧ s.argData.toNat ≤ 256) → exec .xfer s = .next { s with cmderr := true }))

/-- R88: RxByte where it is enabled. The head of the queue is stored at index `RXLEN` and nowhere else; at the expected length
the frame is classified and the receiver returns to `IDLE` in the same step; before it, nothing else changes. -/
def Obligations.RxByteStoresOneByteAndClassifiesAtTheBoundary : Prop :=
  ∀ (s : State) (b : Byte) (q : List Byte), Inv s → s.rxstate = .receiving → s.rxfifo = b :: q →
    ∃ t : State, exec .rxByte s = .next t ∧
      t.rxbuf.read s.rxlen = b ∧ (∀ a, a ≠ s.rxlen → t.rxbuf.read a = s.rxbuf.read a) ∧
      t.rxBytes = s.rxBytes ++ [b] ∧
      (s.rxlen + 1 < s.rxexp → t = { s with rxfifo := q, rxbuf := t.rxbuf, rxlen := s.rxlen + 1 }) ∧
      (s.rxlen + 1 = s.rxexp → t =
        { s with
          rxfifo := q
          rxbuf := t.rxbuf
          rxlen := s.rxlen + 1
          rxstate := .idle
          res := decodeResults (s.rxBytes ++ [b]) })

/-- R89: RxTimeout where it is enabled: always a short reply; `RESULT <- TRUNCATED`, every diagnostic register is 0, back to
`IDLE`, `decode` is not run, the bytes received and those that arrive later stay. -/
def Obligations.RxTimeoutRecordsTruncated : Prop :=
  ∀ s : State, Inv s → s.rxstate = .receiving → s.rxfifo = [] →
    s.rxlen < s.rxexp ∧
    exec .rxTimeout s = .next
      { s with
        rxstate := .idle
        res :=
          { result := .truncated, chk := .none, reqcrc := false
            crcrx := 0#16, crccalc := 0#16, errcode := 0#8
            paylen := 0#8, ackaddr := 0#16, ackval := 0#16 } }

/-- R87: in `IDLE` the receiver takes no step and pulls nothing; in `RECEIVING` it waits while nothing has arrived, and a timeout
needs an empty queue (R40). That a turn which is not enabled is passed over is the model's choice, log entry 2. -/
def Obligations.ReceiverStepsNeedTheirConditions : Prop :=
  ∀ s : State,
    (s.rxstate = .idle ∨ s.rxfifo = [] → exec .rxByte s = .next s) ∧
    (s.rxstate = .idle ∨ s.rxfifo ≠ [] → exec .rxTimeout s = .next s)

/-- R87: the transitions of the receiver are exactly those of the table: an accepted XFER, the completing byte, a timeout, a
reset. -/
def Obligations.ReceiverTransitionsAreExactlyThese : Prop :=
  ∀ s t : State, step s = .next t → t.rxstate ≠ s.rxstate →
    (s.rxstate = .idle ∧ t.rxstate = .receiving ∧
      (∃ v : Word, s.nextInput = .hostWrite 0x00 v ∧ v.extractLsb' 0 4 = 5#4) ∧ s.txlen = 8 ∧ s.argData.toNat ≤ 256) ∨
    (s.rxstate = .receiving ∧ t.rxstate = .idle ∧
      ((s.nextInput = .receive ∧ s.rxfifo ≠ [] ∧ s.rxlen + 1 = s.rxexp) ∨
       (s.nextInput = .linkTimeout ∧ s.rxfifo = []) ∨
       s.nextInput = .reset))

/-- R98 and R103: a transaction that ends, but for a reset, ends with exactly one outcome recorded: what `decode` makes of the
`RXEXP` bytes received, or `TRUNCATED` with fewer than `RXEXP` bytes. -/
def Obligations.TransactionEndsWithOneOutcome : Prop :=
  ∀ s t : State, Inv s → s.rxstate = .receiving → t.rxstate = .idle → s.nextInput ≠ .reset → step s = .next t →
    t.res.result ≠ .none ∧
    ((t.rxlen = t.rxexp ∧ t.res = decodeResults t.rxBytes) ∨
     (t.rxlen < t.rxexp ∧ s.nextInput = .linkTimeout ∧ t.res.result = .truncated))

/-- R88 and R98: when the rest of the expected reply is waiting, as many turns of the receiver as bytes are missing collect it in
arrival order, classify the whole frame and leave what comes after it waiting. -/
def Obligations.ReceptionCollectsAndClassifiesTheFrame : Prop :=
  ∀ (s : State) (f q : List Byte) (rest : List Input), Inv s → s.rxstate = .receiving → s.rxfifo = f ++ q →
    s.rxlen + f.length = s.rxexp → s.inputs = List.replicate f.length .receive ++ rest →
    ∃ t : State, Host.Core.run core f.length s = .next t ∧ t.rxBytes = s.rxBytes ++ f ∧
      t =
        { s with
          rxfifo := q
          rxbuf := t.rxbuf
          rxlen := s.rxexp
          rxstate := .idle
          res := decodeResults (s.rxBytes ++ f)
          inputs := rest }

/-- R67 "read chunk", R86, R95: with a read request of `n` registers in `TXBUF`, `ARG_DATA = 2n + 1`, and the device's correct
reply first in the queue, XFER, the reception and CHECK end in `OK` and `PASS`, with the payload in place. -/
def Obligations.MatchedReadTransactionPasses : Prop :=
  ∀ (s : State) (n : Nat) (dev : Byte) (payload q : List Byte) (rest : List Input),
    Inv s → s.rxstate = .idle → n ≤ 127 → s.txlen = 8 → s.reqFunction = 0x03#8 → s.reqData = BitVec.ofNat 16 n →
    s.argData = BitVec.ofNat 16 (2 * n + 1) → payload.length = 2 * n →
    s.rxfifo = sealed (readReplyHead dev payload) ++ q →
    s.inputs = .hostWrite 0x00 0x0005#16 ::
      (List.replicate (2 * n + 5) .receive ++ .hostWrite 0x00 0x0007#16 :: rest) →
    ∃ t : State, Host.Core.run core (2 * n + 7) s = .next t ∧ t.rxstate = .idle ∧ t.cmderr = false ∧
      t.res.result = .ok ∧ t.res.chk = .pass ∧ t.res.paylen.toNat = 2 * n ∧ t.rxbuf.readBytes 3 (2 * n) = payload ∧
      t.rxfifo = q ∧ t.txstream = s.txstream ++ s.txBytes ∧ t.inputs = rest

/-- R67 `write_register`, R86, R95: with a write request in `TXBUF`, `ARG_DATA = 4`, and an acknowledge first in the queue, the
same sequence ends in `WRITE_ACK`, and CHECK passes exactly when the echo is the address and the value of the request. -/
def Obligations.WriteTransactionPassesExactlyOnTheRightEcho : Prop :=
  ∀ (s : State) (dev : Byte) (reg val : Word) (q : List Byte) (rest : List Input),
    Inv s → s.rxstate = .idle → s.txlen = 8 → s.reqFunction = 0x06#8 → s.argData = 4#16 →
    s.rxfifo = sealed (fieldsHead dev 0x06#8 reg val) ++ q →
    s.inputs = .hostWrite 0x00 0x0005#16 :: (List.replicate 8 .receive ++ .hostWrite 0x00 0x0007#16 :: rest) →
    ∃ t : State, Host.Core.run core 10 s = .next t ∧ t.res.result = .writeAck ∧ t.res.ackaddr = reg ∧ t.res.ackval = val ∧
      t.res.chk = (if reg = s.reqAddr ∧ val = s.reqData then .pass else .violation) ∧
      t.rxfifo = q ∧ t.txstream = s.txstream ++ s.txBytes ∧ t.inputs = rest

/-- R98 (and 90_conflicts.md C3): a device error reply followed by silence ends a well-formed transaction in `TRUNCATED` with 5
bytes held, and DECODE then classifies them as `DEVICE_ERROR`. -/
def Obligations.ErrorReplyEndsTruncatedThenDecodes : Prop :=
  ∀ (s : State) (dev code : Byte) (func : BitVec 7) (rest : List Input),
    Inv s → s.rxstate = .receiving → s.rxlen = 0 → 7 ≤ s.rxexp → s.rxfifo = sealed (errorHead dev func code) →
    s.inputs = List.replicate 5 .receive ++ .linkTimeout :: .hostWrite 0x00 0x0006#16 :: rest →
    (∃ t : State, Host.Core.run core 6 s = .next t ∧ t.rxstate = .idle ∧ t.res.result = .truncated ∧ t.res.errcode = 0#8 ∧
      t.rxlen = 5 ∧ t.rxexp = s.rxexp) ∧
    (∃ t : State, Host.Core.run core 7 s = .next t ∧ t.res.result = .deviceError ∧ t.res.errcode = code ∧
      (t.res.reqcrc = true ↔ code = 0x08#8) ∧ t.rxlen = 5 ∧ t.inputs = rest)

/-! ### The validator: classification -/

/-- `decode`, step by step, in the order of the listing of 42_validator.md section 2. For every byte sequence exactly the registers
named are assigned, all other outcome and diagnostic registers are 0, and nothing outside them changes. That `decode` is an
operation of its own, on any byte sequence in any state, that changes nothing but the nine registers is the model's choice,
log entry 14. -/
def Obligations.DecodeDecidesInOrder : Prop :=
  ∀ (f : List Byte) (s : State),
    let L := f.length
    let rx := u16le (byteAt f (L - 2)) (byteAt f (L - 1))
    let computed := crc16 (f.take (L - 2))
    let fn := byteAt f 1
    let n := (byteAt f 2).toNat
    let clear : Results :=
      { result := .none, chk := .none, reqcrc := false
        crcrx := 0#16, crccalc := 0#16, errcode := 0#8
        paylen := 0#8, ackaddr := 0#16, ackval := 0#16 }
    let held : Results := { clear with crcrx := rx, crccalc := computed }
    let answers (r : Results) : Prop := exec (.decode f) s = .next { s with res := r }
    (L < 2 → answers { clear with result := .truncated }) ∧
    (2 ≤ L → rx ≠ computed → answers { held with result := .checksumMismatch }) ∧
    (2 ≤ L → rx = computed →
      (L < 4 → answers { held with result := .truncated }) ∧
      (4 ≤ L → 0x80 ≤ fn.toNat →
        (L < 5 → answers { held with result := .truncated }) ∧
        (5 < L → answers { held with result := .unexpected }) ∧
        (L = 5 → answers { held with result := .deviceError, errcode := byteAt f 2, reqcrc := decide (n = 8) })) ∧
      (4 ≤ L → fn = 0x03#8 →
        (L < n + 5 → answers { held with result := .truncated }) ∧
        (5 ≤ L → n + 5 < L → answers { held with result := .unexpected }) ∧
        (L = n + 5 → answers { held with result := .ok, paylen := byteAt f 2 })) ∧
      (4 ≤ L → fn = 0x06#8 →
        (L < 8 → answers { held with result := .truncated }) ∧
        (8 < L → answers { held with result := .unexpected }) ∧
        (L = 8 → answers
          { held with
            result := .writeAck
            ackaddr := u16be (byteAt f 2) (byteAt f 3)
            ackval := u16be (byteAt f 4) (byteAt f 5) })) ∧
      (4 ≤ L → fn.toNat < 0x80 → fn ≠ 0x03#8 → fn ≠ 0x06#8 → answers { held with result := .unexpected }))

/-- R96: which outcome needs which length. -/
def Obligations.OutcomesNeedTheirLengths : Prop :=
  ∀ f : List Byte,
    (∀ n, classify f = .ok n → f.length = n.toNat + 5 ∧ byteAt f 1 = 0x03#8 ∧ byteAt f 2 = n) ∧
    (∀ a v, classify f = .writeAck a v → f.length = 8 ∧ byteAt f 1 = 0x06#8) ∧
    (∀ c, classify f = .deviceError c → f.length = 5 ∧ 0x80 ≤ (byteAt f 1).toNat ∧ byteAt f 2 = c) ∧
    (classify f = .checksumMismatch ↔ 2 ≤ f.length ∧ crcReceived f ≠ crcComputed f) ∧
    (f.length < 2 → classify f = .truncated) ∧
    (f.length < 4 → classify f = .truncated ∨ classify f = .checksumMismatch) ∧
    (classify f = .unexpected → 4 ≤ f.length)

/-- R51 to R56, R60: every well-formed reply frame, as encoded, is classified as its format says. -/
def Obligations.WellFormedRepliesAreRecognised : Prop :=
  ∀ (i : Instr) (f : List Byte), WellFormed i → encode i = some (.frame .toBlock f) →
    (∀ dev func code crc, i = .errorReply dev func code crc → classify f = .deviceError code) ∧
    (∀ dev payload crc, i = .readReply dev payload crc → classify f = .ok (BitVec.ofNat 8 payload.length)) ∧
    (∀ dev reg val crc, i = .writeReply dev reg val crc → classify f = .writeAck reg val) ∧
    (∀ dev func body crc, i = .unknownReply dev func body crc → classify f = .unexpected)

/-- R92: DECODE, `CMD` code 6, in `IDLE` records what `decode` makes of the bytes held and clears `CMDERR`; buffers, lengths, `CRCACC` and the
link are untouched; while `BUSY = 1` it is refused. -/
def Obligations.DecodeCommandClassifiesTheBytesHeld : Prop :=
  (∀ v : Word, v.extractLsb' 0 4 = 6#4 → decodeCommand v = .decodeCmd) ∧
  (∀ s : State,
    (s.rxstate = .idle → exec .decodeCmd s =
      .next { s with res := decodeResults (s.rxbuf.readBytes 0 s.rxlen), cmderr := false }) ∧
    (s.rxstate = .receiving → exec .decodeCmd s = .next { s with cmderr := true }))

/-- R95: CHECK, `CMD` code 7. Its three inconsistencies are function code, declared length and echo; the device address is not compared, and
`2 * count` is a product of natural numbers, so a count above 127 is always a violation (R74). Only `CHK` and `CMDERR` are
written. Without its precondition it is refused and `CHK` keeps its value. -/
def Obligations.CheckComparesReplyWithRequest : Prop :=
  (∀ v : Word, v.extractLsb' 0 4 = 7#4 → decodeCommand v = .check) ∧
  (∀ s : State,
    let reqf := s.txbuf.read 1
    let addr := u16be (s.txbuf.read 2) (s.txbuf.read 3)
    let data := u16be (s.txbuf.read 4) (s.txbuf.read 5)
    let answers (chk : CheckCode) : Prop :=
      exec .check s = .next { s with cmderr := false, res := { s.res with chk := chk } }
    (s.rxstate = .idle → s.txlen = 8 → s.res.result = .ok →
      (reqf = 0x03#8 ∧ s.res.paylen.toNat = 2 * data.toNat → answers .pass) ∧
      (reqf ≠ 0x03#8 ∨ s.res.paylen.toNat ≠ 2 * data.toNat → answers .violation) ∧
      (127 < data.toNat → answers .violation)) ∧
    (s.rxstate = .idle → s.txlen = 8 → s.res.result = .writeAck →
      (reqf = 0x06#8 ∧ s.res.ackaddr = addr ∧ s.res.ackval = data → answers .pass) ∧
      (reqf ≠ 0x06#8 ∨ s.res.ackaddr ≠ addr ∨ s.res.ackval ≠ data → answers .violation)) ∧
    (s.rxstate = .receiving ∨ s.txlen ≠ 8 ∨ (s.res.result ≠ .ok ∧ s.res.result ≠ .writeAck) →
      exec .check s = .next { s with cmderr := true }))

/-! ### Results: when they change -/

/-- R47 item 4 and R111: in `IDLE`, `RESULT` and the diagnostic registers change only by an accepted XFER, by DECODE or by a
reset, and `CHK` by those or by CHECK; the bytes received and `RXEXP` by XFER or a reset. -/
def Obligations.ResultsStayUntilReplaced : Prop :=
  ∀ s t : State, s.rxstate = .idle → step s = .next t →
    let launched (op : BitVec 4) : Prop := ∃ v : Word, s.nextInput = .hostWrite 0x00 v ∧ v.extractLsb' 0 4 = op
    ({ t.res with chk := s.res.chk } ≠ s.res → launched 5#4 ∨ launched 6#4 ∨ s.nextInput = .reset) ∧
    (t.res.chk ≠ s.res.chk → launched 5#4 ∨ launched 6#4 ∨ launched 7#4 ∨ s.nextInput = .reset) ∧
    (t.rxbuf ≠ s.rxbuf ∨ t.rxlen ≠ s.rxlen ∨ t.rxexp ≠ s.rxexp → launched 5#4 ∨ s.nextInput = .reset)

/-- R10 and R111: `CMDERR` changes only by a write to `CMD` or a reset. A request frame stands for such a write (log entry 4). -/
def Obligations.CmderrChangesOnlyByCommands : Prop :=
  ∀ s t : State, step s = .next t → t.cmderr ≠ s.cmderr →
    (∃ v : Word, s.nextInput = .hostWrite 0x00 v) ∨ s.nextInput = .reset ∨ (∃ f, s.nextInput = .frame .toDevice f)

/-- R17: `STATUS` field by field, and the relations among them that R17 says a model may rely on. -/
def Obligations.StatusShowsItsFields : Prop :=
  ∀ s : State, Inv s →
    let w := s.readRegister 0x04
    (w.getLsbD 0 = true ↔ s.rxstate = .receiving) ∧
    (w.getLsbD 1 = true ↔ s.txlen = 8) ∧
    w.getLsbD 2 = s.cmderr ∧
    (w.getLsbD 3 = true ↔ s.res.result = .deviceError ∧ s.res.errcode = 0x08#8) ∧
    w.extractLsb' 4 4 = (match s.res.result with
      | .none => 0#4
      | .ok => 1#4
      | .writeAck => 2#4
      | .deviceError => 3#4
      | .checksumMismatch => 4#4
      | .truncated => 5#4
      | .unexpected => 6#4) ∧
    w.extractLsb' 8 2 = (match s.res.chk with
      | .none => 0#2
      | .pass => 1#2
      | .violation => 2#2) ∧
    w.extractLsb' 10 6 = 0#6 ∧
    (w.getLsbD 0 = true → w.extractLsb' 4 4 = 0#4 ∧ w.extractLsb' 8 2 = 0#2) ∧
    (w.extractLsb' 8 2 ≠ 0#2 → w.extractLsb' 4 4 = 1#4 ∨ w.extractLsb' 4 4 = 2#4) ∧
    (w.getLsbD 3 = true → w.extractLsb' 4 4 = 3#4)

/-- R25 to R29: in every state that meets the invariant the diagnostic registers fit the outcome and the bytes held: a mismatch
exactly when the two checksums differ; the payload length, the acknowledge and the error code are those of the frame held for
their outcome and 0 for every other. -/
def Obligations.DiagnosticsFitTheOutcome : Prop :=
  ∀ s : State, Inv s →
    (s.res.result = .checksumMismatch ↔ s.res.crcrx ≠ s.res.crccalc) ∧
    (s.res.result = .ok → s.res.paylen.toNat + 5 = s.rxlen ∧ s.res.paylen = s.rxbuf.read 2) ∧
    (s.res.result ≠ .ok → s.res.paylen = 0#8) ∧
    (s.res.result = .writeAck → s.res.ackaddr = u16be (s.rxbuf.read 2) (s.rxbuf.read 3) ∧
      s.res.ackval = u16be (s.rxbuf.read 4) (s.rxbuf.read 5)) ∧
    (s.res.result ≠ .writeAck → s.res.ackaddr = 0#16 ∧ s.res.ackval = 0#16) ∧
    (s.res.result = .deviceError → s.res.errcode = s.rxbuf.read 2) ∧
    (s.res.result ≠ .deviceError → s.res.errcode = 0#8)

/-! ### Host registers -/

/-- R12: what a host register read gives for the registers that hold a value, zeros on top of a narrow one; `CMD` and every number
above 0x10 read 0. -/
def Obligations.HostReadGivesTheRegister : Prop :=
  ∀ s : State,
    s.readRegister 0x00 = 0#16 ∧ s.readRegister 0x01 = 0#8 ++ s.argDev ∧ s.readRegister 0x02 = s.argAddr ∧
    s.readRegister 0x03 = s.argData ∧ s.readRegister 0x05 = s.crcacc ∧ s.readRegister 0x06 = 0#7 ++ s.bufidx ∧
    s.readRegister 0x0B = s.res.crcrx ∧ s.readRegister 0x0C = s.res.crccalc ∧
    s.readRegister 0x0D = 0#8 ++ s.res.errcode ∧ s.readRegister 0x0E = 0#8 ++ s.res.paylen ∧
    s.readRegister 0x0F = s.res.ackaddr ∧ s.readRegister 0x10 = s.res.ackval ∧
    (∀ r, 0x10 < r → s.readRegister r = 0#16) ∧
    (Inv s → (s.readRegister 0x09).toNat = s.rxlen ∧ (s.readRegister 0x0A).toNat = s.rxexp)

/-- R20 and R21: the windows show the byte at `BUFIDX` below the valid length and 0 beyond it. -/
def Obligations.WindowsShowOnlyValidBytes : Prop :=
  ∀ s : State,
    (s.bufidx.toNat < s.txlen → s.readRegister 0x07 = 0#8 ++ s.txbuf.read s.bufidx.toNat) ∧
    (s.txlen ≤ s.bufidx.toNat → s.readRegister 0x07 = 0#16) ∧
    (s.bufidx.toNat < s.rxlen → s.readRegister 0x08 = 0#8 ++ s.rxbuf.read s.bufidx.toNat) ∧
    (s.rxlen ≤ s.bufidx.toNat → s.readRegister 0x08 = 0#16)

/-- R12 and R46: a host write to a register other than `CMD` changes that register alone, keeping its own bits; one to a read-only
register or to a number above 0x10 changes nothing; a host read changes no state of the block. That the value read is handed to
the host through `retval` is the model's choice, log entry 3. -/
def Obligations.HostAccessesChangeOnlyTheirRegister : Prop :=
  ∀ (s : State) (r : Nat) (v : Word) (l : List Input),
    (s.inputs = .hostRead r :: l → step s = .next { s with retval := s.readRegister r, inputs := l }) ∧
    (s.inputs = .hostWrite r v :: l →
      (r = 0x01 → step s = .next { s with argDev := v.extractLsb' 0 8, inputs := l }) ∧
      (r = 0x02 → step s = .next { s with argAddr := v, inputs := l }) ∧
      (r = 0x03 → step s = .next { s with argData := v, inputs := l }) ∧
      (r = 0x06 → step s = .next { s with bufidx := v.extractLsb' 0 9, inputs := l }) ∧
      (r = 0x04 ∨ r = 0x05 ∨ 0x07 ≤ r → step s = .next { s with inputs := l }))

/-- R21 and R31: bytes of a buffer at or beyond its valid length can never be observed: two states that differ only there read
the same at every register, and stay so after a step. -/
def Obligations.BytesBeyondTheLengthsAreUnobservable : Prop :=
  ∀ s t : State, Inv s → Inv t → SameVisible s t →
    (∀ r, s.readRegister r = t.readRegister r) ∧
    (∀ s' t' : State, step s = .next s' → step t = .next t' → SameVisible s' t')

/-! ### Reset -/

/-- R33: after reset `CRCACC` reads 0xFFFF and every other register reads 0; the receiver is `IDLE`; the
reset event leaves the link's two sequences alone. -/
def Obligations.ResetValuesReadAsTheTableSays : Prop :=
  (∀ r : Nat, State.reset.readRegister r = if r = 0x05 then 0xFFFF#16 else 0x0000#16) ∧
  State.reset.rxstate = .idle ∧ State.reset.txlen = 0 ∧ State.reset.res = .cleared ∧ State.reset.cmderr = false ∧
  (∀ s : State, s.resetBlock.txstream = s.txstream ∧ s.resetBlock.rxfifo = s.rxfifo)

/-- R122 and R123: the reset event, at any time. Every element of the block takes its value of R33, a transaction in flight is
abandoned without an outcome, and the link keeps every byte. -/
def Obligations.ResetEventKeepsTheLink : Prop :=
  ∀ (s : State) (l : List Input), s.inputs = .reset :: l →
    ∃ t : State, step s = .next t ∧ t.txstream = s.txstream ∧ t.rxfifo = s.rxfifo ∧ t.inputs = l ∧
      t.argDev = 0#8 ∧ t.argAddr = 0#16 ∧ t.argData = 0#16 ∧ t.bufidx = 0#9 ∧ t.crcacc = 0xFFFF#16 ∧ t.txlen = 0 ∧
      t.rxlen = 0 ∧ t.rxexp = 0 ∧ t.rxstate = .idle ∧ t.cmderr = false ∧
      t.res =
        { result := .none, chk := .none, reqcrc := false
          crcrx := 0#16, crccalc := 0#16, errcode := 0#8
          paylen := 0#8, ackaddr := 0#16, ackval := 0#16 }

/-- R124: in the state after a reset NOP, CRC_INIT, CRC_BYTE, ENC_READ, ENC_WRITE and DECODE are accepted, DECODE giving
`TRUNCATED`; XFER and CHECK are refused. -/
def Obligations.AfterResetTheseCommandsAreAccepted : Prop :=
  ∀ s : State,
    (∀ v : Word, ((v.extractLsb' 0 4).toNat ≤ 4 ∨ v.extractLsb' 0 4 = 6#4) →
      ∃ t : State, exec (decodeCommand v) s.resetBlock = .next t ∧ t.cmderr = false ∧
        (v.extractLsb' 0 4 = 6#4 → t.res.result = .truncated)) ∧
    exec .xfer s.resetBlock = .next { s.resetBlock with cmderr := true } ∧
    exec .check s.resetBlock = .next { s.resetBlock with cmderr := true }

/-! ### Encoding and the step -/

/-- R61, R62, R52 to R56: decoding what the encoder writes gives the instruction back, with every operand, for every well-formed
instruction that has an encoding. -/
def Obligations.DecodeInvertsEncode : Prop :=
  ∀ (i : Instr) (c : Code), WellFormed i → encode i = some c → decodeCode c = .ok i

/-- R52 to R56, R58, R60: encoding what a frame decodes to gives the frame back, byte for byte; and a value written to `CMD`
decodes to an operation whose code is its low four bits. -/
def Obligations.EncodeInvertsDecode : Prop :=
  (∀ (dir : Direction) (f : List Byte) (i : Instr), decodeCode (.frame dir f) = .ok i → encode i = some (.frame dir f)) ∧
  (∀ v : Word, encode (decodeCommand v) = some (.command (0#12 ++ v.extractLsb' 0 4)))

/-- R52, R56, R62: words written out from the spec's encodings decode to what they stand for. -/
def Obligations.WrittenOutWordsDecode : Prop :=
  decodeTableWord 16 0b1111000011110101 = some .xfer ∧
  decodeTableWord 16 0b0000000000001110 = some (.cmdReserved 6#3) ∧
  decodeRequest [0x01#8, 0x03#8, 0x12#8, 0x34#8, 0x00#8, 0x7D#8, 0xC1#8, 0x5D#8] =
    .ok (.readReq 0x01#8 0x1234#16 0x007D#16 0x5DC1#16) ∧
  decodeReply [0x01#8, 0x83#8, 0x08#8, 0x40#8, 0xF6#8] = .ok (.errorReply 0x01#8 0x03#7 0x08#8 0xF640#16)

/-- A step runs the operation that the next input launches, on the state from which that input has been taken. The model's choices
here are the list of inputs and the receiver's turn when it is empty (log entry 1), a whole frame as one input that launches its
row's operation (log entries 4 and 5), and the numbering of a table word with the place `withFetchWord` gives it (log entry 6). -/
def Obligations.StepRunsTheLaunchedOperation : Prop :=
  ∀ (s : State) (l : List Input),
    (∀ v : Word, s.inputs = .hostWrite 0x00 v :: l → step s = exec (decodeCommand v) { s with inputs := l }) ∧
    (s.inputs = .receive :: l → step s = exec .rxByte { s with inputs := l }) ∧
    (s.inputs = .linkTimeout :: l → step s = exec .rxTimeout { s with inputs := l }) ∧
    (∀ (dir : Direction) (f : List Byte) (i : Instr), s.inputs = .frame dir f :: l → decodeCode (.frame dir f) = .ok i →
      step s = exec i { s with inputs := l }) ∧
    (s.inputs = [] → step s = exec .rxByte s) ∧
    (∀ (nbits w : Nat) (i : Instr), decodeTableWord nbits w = some i → step (s.withFetchWord nbits w) = exec i s)

/-! ### The invariant -/

/-- The state after reset meets the invariant (R33), and so does the state that a reset event leaves. -/
def Obligations.ResetMeetsTheInvariant : Prop :=
  Inv State.reset ∧ ∀ s : State, Inv s.resetBlock

/-- Every step from a state that meets the invariant leads to one that does. -/
def Obligations.StepKeepsTheInvariant : Prop :=
  ∀ s t : State, Inv s → step s = .next t → Inv t

/-- R35 and R113: from a state that meets the invariant no run, of any length and under any inputs, meets a fault or a refusal. -/
def Obligations.NoRunFaults : Prop :=
  ∀ s : State, Inv s → Safe s
end

