-- ==== Sys2Proof/Laws/Crc.lean ====
section
/-! SUPPORT. The loop of `crc16` (40_crc.md R71), said once. -/

namespace Sys2Proof.Machine

@[simp] theorem crcFrom_nil (a : Word) : crcFrom a [] = a := rfl

@[simp] theorem crcFrom_cons (a : Word) (b : Byte) (s : List Byte) : crcFrom a (b :: s) = crcFrom (crcByte a b) s := rfl

theorem crcFrom_append (a : Word) (s t : List Byte) : crcFrom a (s ++ t) = crcFrom (crcFrom a s) t :=
  List.foldl_append

theorem crc16_append (s t : List Byte) : crc16 (s ++ t) = crcFrom (crc16 s) t := crcFrom_append ..

@[simp] theorem crcRounds_zero (a : Word) : crcRounds 0 a = a := rfl

@[simp] theorem crcRounds_succ (k : Nat) (a : Word) : crcRounds (k + 1) a = crcRounds k (crcRound a) := rfl

end Sys2Proof.Machine
end

