-- ==== Sys2Proof/Laws/Memory.lean ====
section
/-! SUPPORT. The laws of the buffers: a read after a write, the canonical form kept by every operation, and equal buffers are
equal data. -/

namespace Sys2Proof.Machine

variable {cap lo i j n : Nat} {b : Byte} {f : List Byte} {m m' : Memory}

theorem Memory.wfFrom_cons {k : Nat} {c : Byte} :
    Memory.wfFrom cap lo ((k, c) :: m) = true ↔
      (lo ≤ k ∧ k < cap ∧ c ≠ Memory.unlisted) ∧ Memory.wfFrom cap (k + 1) m = true := by
  simp [Memory.wfFrom, and_assoc]

theorem Memory.wfFrom_weaken (h : Memory.wfFrom cap lo m = true) (hj : j ≤ lo) : Memory.wfFrom cap j m = true := by
  cases m with
  | nil => rfl
  | cons p m =>
    obtain ⟨k, c⟩ := p
    rw [Memory.wfFrom_cons] at h ⊢
    exact ⟨⟨by omega, h.1.2⟩, h.2⟩

/-- An index below every listed one reads as unlisted. -/
theorem Memory.read_below (h : Memory.wfFrom cap lo m = true) (hi : i < lo) : m.read i = Memory.unlisted := by
  induction m generalizing lo with
  | nil => rfl
  | cons p m ih =>
    obtain ⟨k, c⟩ := p
    rw [Memory.wfFrom_cons] at h
    have hk : i ≠ k := by omega
    simpa [Memory.read, hk] using ih h.2 (by omega)

/-- Beyond the capacity nothing is listed. -/
theorem Memory.read_beyond (h : Memory.wfFrom cap lo m = true) (hi : cap ≤ i) : m.read i = Memory.unlisted := by
  induction m generalizing lo with
  | nil => rfl
  | cons p m ih =>
    obtain ⟨k, c⟩ := p
    rw [Memory.wfFrom_cons] at h
    have hk : i ≠ k := by omega
    simpa [Memory.read, hk] using ih h.2

theorem Memory.wfFrom_write (h : Memory.wfFrom cap lo m = true) (hl : lo ≤ i) (hi : i < cap) :
    Memory.wfFrom cap lo (m.write i b) = true := by
  induction m generalizing lo with
  | nil =>
    by_cases hb : b = Memory.unlisted
    · simp [Memory.write, hb, Memory.wfFrom]
    · simp [Memory.write, hb, Memory.wfFrom, hl, hi]
  | cons p m ih =>
    obtain ⟨k, c⟩ := p
    have h0 := h
    rw [Memory.wfFrom_cons] at h
    obtain ⟨⟨hk, hc, hu⟩, hm⟩ := h
    simp only [Memory.write]
    split
    · next hlt =>
      split
      · exact h0
      · next hb =>
        rw [Memory.wfFrom_cons, Memory.wfFrom_cons]
        exact ⟨⟨hl, hi, hb⟩, ⟨by omega, hc, hu⟩, hm⟩
    · split
      · next heq =>
        subst heq
        split
        · exact Memory.wfFrom_weaken hm (by omega)
        · next hb =>
          rw [Memory.wfFrom_cons]
          exact ⟨⟨hl, hi, hb⟩, hm⟩
      · rw [Memory.wfFrom_cons]
        exact ⟨⟨hk, hc, hu⟩, ih hm (by omega)⟩

/-- A write inside the buffer keeps the canonical form. -/
theorem Memory.wf_write (h : m.wf cap = true) (hi : i < cap) : (m.write i b).wf cap = true :=
  Memory.wfFrom_write h (Nat.zero_le i) hi

theorem Memory.wf_writeBytes (h : m.wf cap = true) (hi : i + f.length ≤ cap) : (m.writeBytes i f).wf cap = true := by
  induction f generalizing m i with
  | nil => exact h
  | cons b f ih =>
    simp only [List.length_cons] at hi
    exact ih (Memory.wf_write h (by omega)) (by omega)

theorem Memory.wf_empty : Memory.wf cap [] = true := rfl

theorem Memory.read_write_self_from (h : Memory.wfFrom cap lo m = true) : (m.write i b).read i = b := by
  induction m generalizing lo with
  | nil =>
    by_cases hb : b = Memory.unlisted
    · simp [Memory.write, Memory.read, hb]
    · simp [Memory.write, Memory.read, hb]
  | cons p m ih =>
    obtain ⟨k, c⟩ := p
    have h0 := h
    rw [Memory.wfFrom_cons] at h
    obtain ⟨⟨hk, hc, hu⟩, hm⟩ := h
    simp only [Memory.write]
    split
    · next hlt =>
      split
      · next hb =>
        have hne : i ≠ k := by omega
        simpa [Memory.read, hne, hb] using Memory.read_below hm (by omega)
      · simp [Memory.read]
    · split
      · next heq =>
        subst heq
        split
        · next hb => rw [hb]; exact Memory.read_below hm (by omega)
        · simp [Memory.read]
      · next heq => simpa [Memory.read, heq] using ih hm

/-- The byte written is read back. -/
theorem Memory.read_write_self (h : m.wf cap = true) : (m.write i b).read i = b :=
  Memory.read_write_self_from h

/-- Every other byte reads as before. -/
theorem Memory.read_write_other (hij : j ≠ i) : (m.write i b).read j = m.read j := by
  induction m with
  | nil =>
    simp only [Memory.write]
    split
    · rfl
    · simp [Memory.read, hij]
  | cons p m ih =>
    obtain ⟨k, c⟩ := p
    simp only [Memory.write]
    split
    · split
      · rfl
      · simp [Memory.read, hij]
    · split
      · next heq =>
        subst heq
        split
        · simp [Memory.read, hij]
        · simp [Memory.read, hij]
      · simp [Memory.read, ih]

/-- Outside the bytes stored, every byte reads as before. -/
theorem Memory.read_writeBytes_other (hj : j < i ∨ i + f.length ≤ j) : (m.writeBytes i f).read j = m.read j := by
  induction f generalizing m i with
  | nil => rfl
  | cons b f ih =>
    simp only [List.length_cons] at hj
    rw [Memory.writeBytes, ih (by omega), Memory.read_write_other (by omega)]

/-- The bytes stored are read back. -/
theorem Memory.read_writeBytes (h : m.wf cap = true) (hi : i + f.length ≤ cap) (hj : j < f.length) :
    (m.writeBytes i f).read (i + j) = f.getD j 0#8 := by
  induction f generalizing m i j with
  | nil => simp at hj
  | cons b f ih =>
    simp only [List.length_cons] at hi hj
    rw [Memory.writeBytes]
    cases j with
    | zero =>
      rw [Memory.read_writeBytes_other (by omega)]
      simpa using Memory.read_write_self h
    | succ j =>
      have := ih (m := m.write i b) (i := i + 1) (j := j) (Memory.wf_write h (by omega)) (by omega) (by omega)
      rw [show i + (j + 1) = i + 1 + j by omega, this]
      simp

@[simp] theorem Memory.length_readBytes : (m.readBytes i n).length = n := by
  induction n generalizing i with
  | zero => rfl
  | succ n ih => simp [Memory.readBytes, ih]

theorem Memory.getElem_readBytes (hj : j < (m.readBytes i n).length) : (m.readBytes i n)[j] = m.read (i + j) := by
  induction n generalizing i j with
  | zero => simp [Memory.readBytes] at hj
  | succ n ih =>
    cases j with
    | zero => simp [Memory.readBytes]
    | succ j =>
      simp only [Memory.length_readBytes] at hj
      simp only [Memory.readBytes, List.getElem_cons_succ]
      rw [ih (by simp; omega)]
      congr 1; omega

/-- A longer read is a shorter one and one more byte. -/
theorem Memory.readBytes_succ : m.readBytes i (n + 1) = m.readBytes i n ++ [m.read (i + n)] := by
  induction n generalizing i with
  | zero => rfl
  | succ n ih =>
    rw [Memory.readBytes, ih, Memory.readBytes]
    simp [show i + 1 + n = i + (n + 1) by omega]

/-- Reads agree where the bytes agree. -/
theorem Memory.readBytes_congr (h : ∀ k, k < n → m.read (i + k) = m'.read (i + k)) :
    m.readBytes i n = m'.readBytes i n := by
  induction n with
  | zero => rfl
  | succ n ih => rw [Memory.readBytes_succ, Memory.readBytes_succ, ih (fun k hk => h k (by omega)), h n (by omega)]

/-- A write at or above the range read changes nothing in it. -/
theorem Memory.readBytes_write_above (hj : i + n ≤ j) : (m.write j b).readBytes i n = m.readBytes i n :=
  Memory.readBytes_congr fun _ hk => Memory.read_write_other (by omega)

/-- A sequence stored is read back whole. -/
theorem Memory.readBytes_writeBytes (h : m.wf cap = true) (hi : i + f.length ≤ cap) :
    (m.writeBytes i f).readBytes i f.length = f := by
  apply List.ext_getElem (by simp)
  intro j h1 h2
  rw [Memory.getElem_readBytes, Memory.read_writeBytes h hi (by simpa using h1), List.getD_eq_getElem?_getD]
  simp [h2]

/-- Equal buffers are equal data. -/
theorem Memory.ext_from (h : Memory.wfFrom cap lo m = true) (h' : Memory.wfFrom cap lo m' = true)
    (hr : ∀ i, m.read i = m'.read i) : m = m' := by
  induction m generalizing m' lo with
  | nil =>
    cases m' with
    | nil => rfl
    | cons p m' =>
      obtain ⟨k, c⟩ := p
      rw [Memory.wfFrom_cons] at h'
      have := hr k
      simp [Memory.read] at this
      exact absurd this.symm h'.1.2.2
  | cons p m ih =>
    obtain ⟨k, c⟩ := p
    rw [Memory.wfFrom_cons] at h
    cases m' with
    | nil =>
      have := hr k
      simp [Memory.read] at this
      exact absurd this h.1.2.2
    | cons p' m' =>
      obtain ⟨k', c'⟩ := p'
      rw [Memory.wfFrom_cons] at h'
      have hk : k = k' := by
        rcases Nat.lt_trichotomy k k' with hlt | heq | hgt
        · have := hr k
          have hne : k ≠ k' := by omega
          simp [Memory.read, hne, Memory.read_below h'.2 (show k < k' + 1 by omega)] at this
          exact absurd this h.1.2.2
        · exact heq
        · have := hr k'
          have hne : k' ≠ k := by omega
          simp [Memory.read, hne, Memory.read_below h.2 (show k' < k + 1 by omega)] at this
          exact absurd this.symm h'.1.2.2
      subst hk
      have hc : c = c' := by simpa [Memory.read] using hr k
      subst hc
      have : m = m' := ih h.2 h'.2 fun i => by
        by_cases hi : i = k
        · subst hi
          rw [Memory.read_below h.2 (by omega), Memory.read_below h'.2 (by omega)]
        · simpa [Memory.read, hi] using hr i
      rw [this]

theorem Memory.ext_wf (h : m.wf cap = true) (h' : m'.wf cap = true) (hr : ∀ i, i < cap → m.read i = m'.read i) :
    m = m' :=
  Memory.ext_from h h' fun i => by
    by_cases hi : i < cap
    · exact hr i hi
    · rw [Memory.read_beyond h (by omega), Memory.read_beyond h' (by omega)]

end Sys2Proof.Machine
end

