-- ==== Sys2Proof/Laws/State.lean ====
section
/-! SUPPORT. What each named update does to each field of State, true by rfl, so that no proof unfolds a record update. -/

namespace Sys2Proof.Machine

section

variable (s : State)

@[simp] theorem State.accept_argDev : (s.accept).argDev = s.argDev := rfl
@[simp] theorem State.accept_argAddr : (s.accept).argAddr = s.argAddr := rfl
@[simp] theorem State.accept_argData : (s.accept).argData = s.argData := rfl
@[simp] theorem State.accept_bufidx : (s.accept).bufidx = s.bufidx := rfl
@[simp] theorem State.accept_cmderr : (s.accept).cmderr = false := rfl
@[simp] theorem State.accept_crcacc : (s.accept).crcacc = s.crcacc := rfl
@[simp] theorem State.accept_txbuf : (s.accept).txbuf = s.txbuf := rfl
@[simp] theorem State.accept_txlen : (s.accept).txlen = s.txlen := rfl
@[simp] theorem State.accept_rxbuf : (s.accept).rxbuf = s.rxbuf := rfl
@[simp] theorem State.accept_rxlen : (s.accept).rxlen = s.rxlen := rfl
@[simp] theorem State.accept_rxexp : (s.accept).rxexp = s.rxexp := rfl
@[simp] theorem State.accept_rxstate : (s.accept).rxstate = s.rxstate := rfl
@[simp] theorem State.accept_res : (s.accept).res = s.res := rfl
@[simp] theorem State.accept_txstream : (s.accept).txstream = s.txstream := rfl
@[simp] theorem State.accept_rxfifo : (s.accept).rxfifo = s.rxfifo := rfl
@[simp] theorem State.accept_inputs : (s.accept).inputs = s.inputs := rfl
@[simp] theorem State.accept_retval : (s.accept).retval = s.retval := rfl

end

section

variable (s : State)

@[simp] theorem State.refuse_argDev : (s.refuse).argDev = s.argDev := rfl
@[simp] theorem State.refuse_argAddr : (s.refuse).argAddr = s.argAddr := rfl
@[simp] theorem State.refuse_argData : (s.refuse).argData = s.argData := rfl
@[simp] theorem State.refuse_bufidx : (s.refuse).bufidx = s.bufidx := rfl
@[simp] theorem State.refuse_cmderr : (s.refuse).cmderr = true := rfl
@[simp] theorem State.refuse_crcacc : (s.refuse).crcacc = s.crcacc := rfl
@[simp] theorem State.refuse_txbuf : (s.refuse).txbuf = s.txbuf := rfl
@[simp] theorem State.refuse_txlen : (s.refuse).txlen = s.txlen := rfl
@[simp] theorem State.refuse_rxbuf : (s.refuse).rxbuf = s.rxbuf := rfl
@[simp] theorem State.refuse_rxlen : (s.refuse).rxlen = s.rxlen := rfl
@[simp] theorem State.refuse_rxexp : (s.refuse).rxexp = s.rxexp := rfl
@[simp] theorem State.refuse_rxstate : (s.refuse).rxstate = s.rxstate := rfl
@[simp] theorem State.refuse_res : (s.refuse).res = s.res := rfl
@[simp] theorem State.refuse_txstream : (s.refuse).txstream = s.txstream := rfl
@[simp] theorem State.refuse_rxfifo : (s.refuse).rxfifo = s.rxfifo := rfl
@[simp] theorem State.refuse_inputs : (s.refuse).inputs = s.inputs := rfl
@[simp] theorem State.refuse_retval : (s.refuse).retval = s.retval := rfl

end

section

variable (s : State) (v : Word)

@[simp] theorem State.setCrcacc_argDev : (s.setCrcacc v).argDev = s.argDev := rfl
@[simp] theorem State.setCrcacc_argAddr : (s.setCrcacc v).argAddr = s.argAddr := rfl
@[simp] theorem State.setCrcacc_argData : (s.setCrcacc v).argData = s.argData := rfl
@[simp] theorem State.setCrcacc_bufidx : (s.setCrcacc v).bufidx = s.bufidx := rfl
@[simp] theorem State.setCrcacc_cmderr : (s.setCrcacc v).cmderr = s.cmderr := rfl
@[simp] theorem State.setCrcacc_crcacc : (s.setCrcacc v).crcacc = v := rfl
@[simp] theorem State.setCrcacc_txbuf : (s.setCrcacc v).txbuf = s.txbuf := rfl
@[simp] theorem State.setCrcacc_txlen : (s.setCrcacc v).txlen = s.txlen := rfl
@[simp] theorem State.setCrcacc_rxbuf : (s.setCrcacc v).rxbuf = s.rxbuf := rfl
@[simp] theorem State.setCrcacc_rxlen : (s.setCrcacc v).rxlen = s.rxlen := rfl
@[simp] theorem State.setCrcacc_rxexp : (s.setCrcacc v).rxexp = s.rxexp := rfl
@[simp] theorem State.setCrcacc_rxstate : (s.setCrcacc v).rxstate = s.rxstate := rfl
@[simp] theorem State.setCrcacc_res : (s.setCrcacc v).res = s.res := rfl
@[simp] theorem State.setCrcacc_txstream : (s.setCrcacc v).txstream = s.txstream := rfl
@[simp] theorem State.setCrcacc_rxfifo : (s.setCrcacc v).rxfifo = s.rxfifo := rfl
@[simp] theorem State.setCrcacc_inputs : (s.setCrcacc v).inputs = s.inputs := rfl
@[simp] theorem State.setCrcacc_retval : (s.setCrcacc v).retval = s.retval := rfl

end

section

variable (s : State) (d : Byte) (a v : Word)

@[simp] theorem State.setOperands_argDev : (s.setOperands d a v).argDev = d := rfl
@[simp] theorem State.setOperands_argAddr : (s.setOperands d a v).argAddr = a := rfl
@[simp] theorem State.setOperands_argData : (s.setOperands d a v).argData = v := rfl
@[simp] theorem State.setOperands_bufidx : (s.setOperands d a v).bufidx = s.bufidx := rfl
@[simp] theorem State.setOperands_cmderr : (s.setOperands d a v).cmderr = s.cmderr := rfl
@[simp] theorem State.setOperands_crcacc : (s.setOperands d a v).crcacc = s.crcacc := rfl
@[simp] theorem State.setOperands_txbuf : (s.setOperands d a v).txbuf = s.txbuf := rfl
@[simp] theorem State.setOperands_txlen : (s.setOperands d a v).txlen = s.txlen := rfl
@[simp] theorem State.setOperands_rxbuf : (s.setOperands d a v).rxbuf = s.rxbuf := rfl
@[simp] theorem State.setOperands_rxlen : (s.setOperands d a v).rxlen = s.rxlen := rfl
@[simp] theorem State.setOperands_rxexp : (s.setOperands d a v).rxexp = s.rxexp := rfl
@[simp] theorem State.setOperands_rxstate : (s.setOperands d a v).rxstate = s.rxstate := rfl
@[simp] theorem State.setOperands_res : (s.setOperands d a v).res = s.res := rfl
@[simp] theorem State.setOperands_txstream : (s.setOperands d a v).txstream = s.txstream := rfl
@[simp] theorem State.setOperands_rxfifo : (s.setOperands d a v).rxfifo = s.rxfifo := rfl
@[simp] theorem State.setOperands_inputs : (s.setOperands d a v).inputs = s.inputs := rfl
@[simp] theorem State.setOperands_retval : (s.setOperands d a v).retval = s.retval := rfl

end

section

variable (s : State) (f : List Byte)

@[simp] theorem State.setRequest_argDev : (s.setRequest f).argDev = s.argDev := rfl
@[simp] theorem State.setRequest_argAddr : (s.setRequest f).argAddr = s.argAddr := rfl
@[simp] theorem State.setRequest_argData : (s.setRequest f).argData = s.argData := rfl
@[simp] theorem State.setRequest_bufidx : (s.setRequest f).bufidx = s.bufidx := rfl
@[simp] theorem State.setRequest_cmderr : (s.setRequest f).cmderr = s.cmderr := rfl
@[simp] theorem State.setRequest_crcacc : (s.setRequest f).crcacc = s.crcacc := rfl
@[simp] theorem State.setRequest_txbuf : (s.setRequest f).txbuf = s.txbuf.writeBytes 0 f := rfl
@[simp] theorem State.setRequest_txlen : (s.setRequest f).txlen = Config.txCap := rfl
@[simp] theorem State.setRequest_rxbuf : (s.setRequest f).rxbuf = s.rxbuf := rfl
@[simp] theorem State.setRequest_rxlen : (s.setRequest f).rxlen = s.rxlen := rfl
@[simp] theorem State.setRequest_rxexp : (s.setRequest f).rxexp = s.rxexp := rfl
@[simp] theorem State.setRequest_rxstate : (s.setRequest f).rxstate = s.rxstate := rfl
@[simp] theorem State.setRequest_res : (s.setRequest f).res = s.res := rfl
@[simp] theorem State.setRequest_txstream : (s.setRequest f).txstream = s.txstream := rfl
@[simp] theorem State.setRequest_rxfifo : (s.setRequest f).rxfifo = s.rxfifo := rfl
@[simp] theorem State.setRequest_inputs : (s.setRequest f).inputs = s.inputs := rfl
@[simp] theorem State.setRequest_retval : (s.setRequest f).retval = s.retval := rfl

end

section

variable (s : State) (r : Results)

@[simp] theorem State.setResults_argDev : (s.setResults r).argDev = s.argDev := rfl
@[simp] theorem State.setResults_argAddr : (s.setResults r).argAddr = s.argAddr := rfl
@[simp] theorem State.setResults_argData : (s.setResults r).argData = s.argData := rfl
@[simp] theorem State.setResults_bufidx : (s.setResults r).bufidx = s.bufidx := rfl
@[simp] theorem State.setResults_cmderr : (s.setResults r).cmderr = s.cmderr := rfl
@[simp] theorem State.setResults_crcacc : (s.setResults r).crcacc = s.crcacc := rfl
@[simp] theorem State.setResults_txbuf : (s.setResults r).txbuf = s.txbuf := rfl
@[simp] theorem State.setResults_txlen : (s.setResults r).txlen = s.txlen := rfl
@[simp] theorem State.setResults_rxbuf : (s.setResults r).rxbuf = s.rxbuf := rfl
@[simp] theorem State.setResults_rxlen : (s.setResults r).rxlen = s.rxlen := rfl
@[simp] theorem State.setResults_rxexp : (s.setResults r).rxexp = s.rxexp := rfl
@[simp] theorem State.setResults_rxstate : (s.setResults r).rxstate = s.rxstate := rfl
@[simp] theorem State.setResults_res : (s.setResults r).res = r := rfl
@[simp] theorem State.setResults_txstream : (s.setResults r).txstream = s.txstream := rfl
@[simp] theorem State.setResults_rxfifo : (s.setResults r).rxfifo = s.rxfifo := rfl
@[simp] theorem State.setResults_inputs : (s.setResults r).inputs = s.inputs := rfl
@[simp] theorem State.setResults_retval : (s.setResults r).retval = s.retval := rfl

end

section

variable (s : State) (r : RxState)

@[simp] theorem State.setRxState_argDev : (s.setRxState r).argDev = s.argDev := rfl
@[simp] theorem State.setRxState_argAddr : (s.setRxState r).argAddr = s.argAddr := rfl
@[simp] theorem State.setRxState_argData : (s.setRxState r).argData = s.argData := rfl
@[simp] theorem State.setRxState_bufidx : (s.setRxState r).bufidx = s.bufidx := rfl
@[simp] theorem State.setRxState_cmderr : (s.setRxState r).cmderr = s.cmderr := rfl
@[simp] theorem State.setRxState_crcacc : (s.setRxState r).crcacc = s.crcacc := rfl
@[simp] theorem State.setRxState_txbuf : (s.setRxState r).txbuf = s.txbuf := rfl
@[simp] theorem State.setRxState_txlen : (s.setRxState r).txlen = s.txlen := rfl
@[simp] theorem State.setRxState_rxbuf : (s.setRxState r).rxbuf = s.rxbuf := rfl
@[simp] theorem State.setRxState_rxlen : (s.setRxState r).rxlen = s.rxlen := rfl
@[simp] theorem State.setRxState_rxexp : (s.setRxState r).rxexp = s.rxexp := rfl
@[simp] theorem State.setRxState_rxstate : (s.setRxState r).rxstate = r := rfl
@[simp] theorem State.setRxState_res : (s.setRxState r).res = s.res := rfl
@[simp] theorem State.setRxState_txstream : (s.setRxState r).txstream = s.txstream := rfl
@[simp] theorem State.setRxState_rxfifo : (s.setRxState r).rxfifo = s.rxfifo := rfl
@[simp] theorem State.setRxState_inputs : (s.setRxState r).inputs = s.inputs := rfl
@[simp] theorem State.setRxState_retval : (s.setRxState r).retval = s.retval := rfl

end

section

variable (s : State) (f : List Byte)

@[simp] theorem State.linkSend_argDev : (s.linkSend f).argDev = s.argDev := rfl
@[simp] theorem State.linkSend_argAddr : (s.linkSend f).argAddr = s.argAddr := rfl
@[simp] theorem State.linkSend_argData : (s.linkSend f).argData = s.argData := rfl
@[simp] theorem State.linkSend_bufidx : (s.linkSend f).bufidx = s.bufidx := rfl
@[simp] theorem State.linkSend_cmderr : (s.linkSend f).cmderr = s.cmderr := rfl
@[simp] theorem State.linkSend_crcacc : (s.linkSend f).crcacc = s.crcacc := rfl
@[simp] theorem State.linkSend_txbuf : (s.linkSend f).txbuf = s.txbuf := rfl
@[simp] theorem State.linkSend_txlen : (s.linkSend f).txlen = s.txlen := rfl
@[simp] theorem State.linkSend_rxbuf : (s.linkSend f).rxbuf = s.rxbuf := rfl
@[simp] theorem State.linkSend_rxlen : (s.linkSend f).rxlen = s.rxlen := rfl
@[simp] theorem State.linkSend_rxexp : (s.linkSend f).rxexp = s.rxexp := rfl
@[simp] theorem State.linkSend_rxstate : (s.linkSend f).rxstate = s.rxstate := rfl
@[simp] theorem State.linkSend_res : (s.linkSend f).res = s.res := rfl
@[simp] theorem State.linkSend_txstream : (s.linkSend f).txstream = s.txstream ++ f := rfl
@[simp] theorem State.linkSend_rxfifo : (s.linkSend f).rxfifo = s.rxfifo := rfl
@[simp] theorem State.linkSend_inputs : (s.linkSend f).inputs = s.inputs := rfl
@[simp] theorem State.linkSend_retval : (s.linkSend f).retval = s.retval := rfl

end

section

variable (s : State) (q : List Byte)

@[simp] theorem State.setFifo_argDev : (s.setFifo q).argDev = s.argDev := rfl
@[simp] theorem State.setFifo_argAddr : (s.setFifo q).argAddr = s.argAddr := rfl
@[simp] theorem State.setFifo_argData : (s.setFifo q).argData = s.argData := rfl
@[simp] theorem State.setFifo_bufidx : (s.setFifo q).bufidx = s.bufidx := rfl
@[simp] theorem State.setFifo_cmderr : (s.setFifo q).cmderr = s.cmderr := rfl
@[simp] theorem State.setFifo_crcacc : (s.setFifo q).crcacc = s.crcacc := rfl
@[simp] theorem State.setFifo_txbuf : (s.setFifo q).txbuf = s.txbuf := rfl
@[simp] theorem State.setFifo_txlen : (s.setFifo q).txlen = s.txlen := rfl
@[simp] theorem State.setFifo_rxbuf : (s.setFifo q).rxbuf = s.rxbuf := rfl
@[simp] theorem State.setFifo_rxlen : (s.setFifo q).rxlen = s.rxlen := rfl
@[simp] theorem State.setFifo_rxexp : (s.setFifo q).rxexp = s.rxexp := rfl
@[simp] theorem State.setFifo_rxstate : (s.setFifo q).rxstate = s.rxstate := rfl
@[simp] theorem State.setFifo_res : (s.setFifo q).res = s.res := rfl
@[simp] theorem State.setFifo_txstream : (s.setFifo q).txstream = s.txstream := rfl
@[simp] theorem State.setFifo_rxfifo : (s.setFifo q).rxfifo = q := rfl
@[simp] theorem State.setFifo_inputs : (s.setFifo q).inputs = s.inputs := rfl
@[simp] theorem State.setFifo_retval : (s.setFifo q).retval = s.retval := rfl

end

section

variable (s : State) (n : Nat)

@[simp] theorem State.expect_argDev : (s.expect n).argDev = s.argDev := rfl
@[simp] theorem State.expect_argAddr : (s.expect n).argAddr = s.argAddr := rfl
@[simp] theorem State.expect_argData : (s.expect n).argData = s.argData := rfl
@[simp] theorem State.expect_bufidx : (s.expect n).bufidx = s.bufidx := rfl
@[simp] theorem State.expect_cmderr : (s.expect n).cmderr = s.cmderr := rfl
@[simp] theorem State.expect_crcacc : (s.expect n).crcacc = s.crcacc := rfl
@[simp] theorem State.expect_txbuf : (s.expect n).txbuf = s.txbuf := rfl
@[simp] theorem State.expect_txlen : (s.expect n).txlen = s.txlen := rfl
@[simp] theorem State.expect_rxbuf : (s.expect n).rxbuf = s.rxbuf := rfl
@[simp] theorem State.expect_rxlen : (s.expect n).rxlen = 0 := rfl
@[simp] theorem State.expect_rxexp : (s.expect n).rxexp = n := rfl
@[simp] theorem State.expect_rxstate : (s.expect n).rxstate = s.rxstate := rfl
@[simp] theorem State.expect_res : (s.expect n).res = s.res := rfl
@[simp] theorem State.expect_txstream : (s.expect n).txstream = s.txstream := rfl
@[simp] theorem State.expect_rxfifo : (s.expect n).rxfifo = s.rxfifo := rfl
@[simp] theorem State.expect_inputs : (s.expect n).inputs = s.inputs := rfl
@[simp] theorem State.expect_retval : (s.expect n).retval = s.retval := rfl

end

section

variable (s : State) (b : Byte)

@[simp] theorem State.storeRx_argDev : (s.storeRx b).argDev = s.argDev := rfl
@[simp] theorem State.storeRx_argAddr : (s.storeRx b).argAddr = s.argAddr := rfl
@[simp] theorem State.storeRx_argData : (s.storeRx b).argData = s.argData := rfl
@[simp] theorem State.storeRx_bufidx : (s.storeRx b).bufidx = s.bufidx := rfl
@[simp] theorem State.storeRx_cmderr : (s.storeRx b).cmderr = s.cmderr := rfl
@[simp] theorem State.storeRx_crcacc : (s.storeRx b).crcacc = s.crcacc := rfl
@[simp] theorem State.storeRx_txbuf : (s.storeRx b).txbuf = s.txbuf := rfl
@[simp] theorem State.storeRx_txlen : (s.storeRx b).txlen = s.txlen := rfl
@[simp] theorem State.storeRx_rxbuf : (s.storeRx b).rxbuf = s.rxbuf.write s.rxlen b := rfl
@[simp] theorem State.storeRx_rxlen : (s.storeRx b).rxlen = s.rxlen + 1 := rfl
@[simp] theorem State.storeRx_rxexp : (s.storeRx b).rxexp = s.rxexp := rfl
@[simp] theorem State.storeRx_rxstate : (s.storeRx b).rxstate = s.rxstate := rfl
@[simp] theorem State.storeRx_res : (s.storeRx b).res = s.res := rfl
@[simp] theorem State.storeRx_txstream : (s.storeRx b).txstream = s.txstream := rfl
@[simp] theorem State.storeRx_rxfifo : (s.storeRx b).rxfifo = s.rxfifo := rfl
@[simp] theorem State.storeRx_inputs : (s.storeRx b).inputs = s.inputs := rfl
@[simp] theorem State.storeRx_retval : (s.storeRx b).retval = s.retval := rfl

end

section

variable (s : State) (l : List Input)

@[simp] theorem State.setInputs_argDev : (s.setInputs l).argDev = s.argDev := rfl
@[simp] theorem State.setInputs_argAddr : (s.setInputs l).argAddr = s.argAddr := rfl
@[simp] theorem State.setInputs_argData : (s.setInputs l).argData = s.argData := rfl
@[simp] theorem State.setInputs_bufidx : (s.setInputs l).bufidx = s.bufidx := rfl
@[simp] theorem State.setInputs_cmderr : (s.setInputs l).cmderr = s.cmderr := rfl
@[simp] theorem State.setInputs_crcacc : (s.setInputs l).crcacc = s.crcacc := rfl
@[simp] theorem State.setInputs_txbuf : (s.setInputs l).txbuf = s.txbuf := rfl
@[simp] theorem State.setInputs_txlen : (s.setInputs l).txlen = s.txlen := rfl
@[simp] theorem State.setInputs_rxbuf : (s.setInputs l).rxbuf = s.rxbuf := rfl
@[simp] theorem State.setInputs_rxlen : (s.setInputs l).rxlen = s.rxlen := rfl
@[simp] theorem State.setInputs_rxexp : (s.setInputs l).rxexp = s.rxexp := rfl
@[simp] theorem State.setInputs_rxstate : (s.setInputs l).rxstate = s.rxstate := rfl
@[simp] theorem State.setInputs_res : (s.setInputs l).res = s.res := rfl
@[simp] theorem State.setInputs_txstream : (s.setInputs l).txstream = s.txstream := rfl
@[simp] theorem State.setInputs_rxfifo : (s.setInputs l).rxfifo = s.rxfifo := rfl
@[simp] theorem State.setInputs_inputs : (s.setInputs l).inputs = l := rfl
@[simp] theorem State.setInputs_retval : (s.setInputs l).retval = s.retval := rfl

end

section

variable (s : State) (v : Word)

@[simp] theorem State.setRetval_argDev : (s.setRetval v).argDev = s.argDev := rfl
@[simp] theorem State.setRetval_argAddr : (s.setRetval v).argAddr = s.argAddr := rfl
@[simp] theorem State.setRetval_argData : (s.setRetval v).argData = s.argData := rfl
@[simp] theorem State.setRetval_bufidx : (s.setRetval v).bufidx = s.bufidx := rfl
@[simp] theorem State.setRetval_cmderr : (s.setRetval v).cmderr = s.cmderr := rfl
@[simp] theorem State.setRetval_crcacc : (s.setRetval v).crcacc = s.crcacc := rfl
@[simp] theorem State.setRetval_txbuf : (s.setRetval v).txbuf = s.txbuf := rfl
@[simp] theorem State.setRetval_txlen : (s.setRetval v).txlen = s.txlen := rfl
@[simp] theorem State.setRetval_rxbuf : (s.setRetval v).rxbuf = s.rxbuf := rfl
@[simp] theorem State.setRetval_rxlen : (s.setRetval v).rxlen = s.rxlen := rfl
@[simp] theorem State.setRetval_rxexp : (s.setRetval v).rxexp = s.rxexp := rfl
@[simp] theorem State.setRetval_rxstate : (s.setRetval v).rxstate = s.rxstate := rfl
@[simp] theorem State.setRetval_res : (s.setRetval v).res = s.res := rfl
@[simp] theorem State.setRetval_txstream : (s.setRetval v).txstream = s.txstream := rfl
@[simp] theorem State.setRetval_rxfifo : (s.setRetval v).rxfifo = s.rxfifo := rfl
@[simp] theorem State.setRetval_inputs : (s.setRetval v).inputs = s.inputs := rfl
@[simp] theorem State.setRetval_retval : (s.setRetval v).retval = v := rfl

end

section

variable (s : State) (r : Reply)

@[simp] theorem State.record_argDev : (s.record r).argDev = s.argDev := rfl
@[simp] theorem State.record_argAddr : (s.record r).argAddr = s.argAddr := rfl
@[simp] theorem State.record_argData : (s.record r).argData = s.argData := rfl
@[simp] theorem State.record_bufidx : (s.record r).bufidx = s.bufidx := rfl
@[simp] theorem State.record_cmderr : (s.record r).cmderr = s.cmderr := rfl
@[simp] theorem State.record_crcacc : (s.record r).crcacc = s.crcacc := rfl
@[simp] theorem State.record_txbuf : (s.record r).txbuf = s.txbuf := rfl
@[simp] theorem State.record_txlen : (s.record r).txlen = s.txlen := rfl
@[simp] theorem State.record_rxbuf : (s.record r).rxbuf = s.rxbuf := rfl
@[simp] theorem State.record_rxlen : (s.record r).rxlen = s.rxlen := rfl
@[simp] theorem State.record_rxexp : (s.record r).rxexp = s.rxexp := rfl
@[simp] theorem State.record_rxstate : (s.record r).rxstate = s.rxstate := rfl
@[simp] theorem State.record_res : (s.record r).res = r.record s.res := rfl
@[simp] theorem State.record_txstream : (s.record r).txstream = s.txstream := rfl
@[simp] theorem State.record_rxfifo : (s.record r).rxfifo = s.rxfifo := rfl
@[simp] theorem State.record_inputs : (s.record r).inputs = s.inputs := rfl
@[simp] theorem State.record_retval : (s.record r).retval = s.retval := rfl

end

section

variable (s : State)

@[simp] theorem State.resetBlock_argDev : s.resetBlock.argDev = 0#8 := rfl
@[simp] theorem State.resetBlock_argAddr : s.resetBlock.argAddr = 0#16 := rfl
@[simp] theorem State.resetBlock_argData : s.resetBlock.argData = 0#16 := rfl
@[simp] theorem State.resetBlock_bufidx : s.resetBlock.bufidx = 0#9 := rfl
@[simp] theorem State.resetBlock_cmderr : s.resetBlock.cmderr = false := rfl
@[simp] theorem State.resetBlock_crcacc : s.resetBlock.crcacc = 0xFFFF#16 := rfl
@[simp] theorem State.resetBlock_txbuf : s.resetBlock.txbuf = [] := rfl
@[simp] theorem State.resetBlock_txlen : s.resetBlock.txlen = 0 := rfl
@[simp] theorem State.resetBlock_rxbuf : s.resetBlock.rxbuf = [] := rfl
@[simp] theorem State.resetBlock_rxlen : s.resetBlock.rxlen = 0 := rfl
@[simp] theorem State.resetBlock_rxexp : s.resetBlock.rxexp = 0 := rfl
@[simp] theorem State.resetBlock_rxstate : s.resetBlock.rxstate = .idle := rfl
@[simp] theorem State.resetBlock_res : s.resetBlock.res = .cleared := rfl
@[simp] theorem State.resetBlock_txstream : s.resetBlock.txstream = s.txstream := rfl
@[simp] theorem State.resetBlock_rxfifo : s.resetBlock.rxfifo = s.rxfifo := rfl
@[simp] theorem State.resetBlock_inputs : s.resetBlock.inputs = s.inputs := rfl
@[simp] theorem State.resetBlock_retval : s.resetBlock.retval = s.retval := rfl

end

/-- Two states with equal fields are equal. -/
theorem State.ext_fields {s t : State} (h0 : s.argDev = t.argDev) (h1 : s.argAddr = t.argAddr) (h2 : s.argData = t.argData) (h3 : s.bufidx = t.bufidx) (h4 : s.cmderr = t.cmderr) (h5 : s.crcacc = t.crcacc) (h6 : s.txbuf = t.txbuf) (h7 : s.txlen = t.txlen) (h8 : s.rxbuf = t.rxbuf) (h9 : s.rxlen = t.rxlen) (h10 : s.rxexp = t.rxexp) (h11 : s.rxstate = t.rxstate) (h12 : s.res = t.res) (h13 : s.txstream = t.txstream) (h14 : s.rxfifo = t.rxfifo) (h15 : s.inputs = t.inputs) (h16 : s.retval = t.retval) : s = t := by
  cases s; cases t; simp_all

end Sys2Proof.Machine
end

