-- ==== Sys2Proof/Laws/Ops.lean ====
section
/-! SUPPORT. What each shared operation can do, said once: callers cite these and do not unfold the operations. -/

namespace Sys2Proof.Machine

variable {s t : State} {f g : List Byte}

/-! ### Commands -/

/-- A command answers a next state always: accepted or refused. -/
theorem command_eq (p : Bool) (e : State → State) (s : State) :
    command p e s = .next (if p then (e s).accept else s.refuse) := by
  cases p <;> rfl

/-- All that a command can do. -/
theorem command_cases {p : Bool} {e : State → State} (h : command p e s = .next t) :
    (p = true ∧ t = (e s).accept) ∨ (p = false ∧ t = s.refuse) := by
  cases p
  · exact .inr ⟨rfl, by simpa [command] using h.symm⟩
  · exact .inl ⟨rfl, by simpa [command] using h.symm⟩

/-! ### Flags -/

@[simp] theorem busy_iff : s.busy = true ↔ s.rxstate = .receiving := by
  cases h : s.rxstate <;> simp [State.busy, h]

@[simp] theorem not_busy_iff : s.busy = false ↔ s.rxstate = .idle := by
  cases h : s.rxstate <;> simp [State.busy, h]

@[simp] theorem txvalid_iff : s.txvalid = true ↔ s.txlen = 8 := by simp [State.txvalid, Config.txCap]

theorem mayEncode_iff : s.mayEncode = true ↔ s.rxstate = .idle := by simp [State.mayEncode]

theorem mayDecode_iff : s.mayDecode = true ↔ s.rxstate = .idle := by simp [State.mayDecode]

theorem mayTransfer_iff :
    s.mayTransfer = true ↔ s.rxstate = .idle ∧ s.txlen = 8 ∧ s.argData.toNat ≤ 256 := by
  unfold State.mayTransfer State.expbody Config.expbodyMax
  rw [Bool.and_eq_true, Bool.and_eq_true, decide_eq_true_iff]
  simp [and_assoc]

theorem normalReply_iff : s.normalReply = true ↔ s.res.result = .ok ∨ s.res.result = .writeAck := by
  simp [State.normalReply]

theorem mayCheck_iff :
    s.mayCheck = true ↔
      s.rxstate = .idle ∧ s.txlen = 8 ∧ (s.res.result = .ok ∨ s.res.result = .writeAck) := by
  simp [State.mayCheck, normalReply_iff, and_assoc]

/-! ### Frames -/

@[simp] theorem length_be16 (v : Word) : (be16 v).length = 2 := rfl

@[simp] theorem length_le16 (v : Word) : (le16 v).length = 2 := rfl

@[simp] theorem length_fieldsHead (dev fn : Byte) (a v : Word) : (fieldsHead dev fn a v).length = 6 := rfl

@[simp] theorem length_errorHead (dev : Byte) (func : BitVec 7) (code : Byte) : (errorHead dev func code).length = 3 := rfl

@[simp] theorem length_readReplyHead (dev : Byte) (p : List Byte) : (readReplyHead dev p).length = p.length + 3 := by
  simp [readReplyHead]

@[simp] theorem length_unknownHead (dev fn : Byte) (b : List Byte) : (unknownHead dev fn b).length = b.length + 2 := by
  simp [unknownHead]

@[simp] theorem length_withCrc (h : List Byte) (c : Word) : (withCrc h c).length = h.length + 2 := by simp [withCrc]

@[simp] theorem length_sealed (h : List Byte) : (sealed h).length = h.length + 2 := by simp [sealed]

theorem u16be_be16 (v : Word) : u16be (v.extractLsb' 8 8) (v.extractLsb' 0 8) = v := by
  apply BitVec.eq_of_getLsbD_eq
  intro i hi
  rw [u16be, BitVec.getLsbD_append]
  split
  · next h => simp [h]
  · next h => simp [show i - 8 < 8 by omega, show 8 + (i - 8) = i by omega]

theorem u16le_le16 (v : Word) : u16le (v.extractLsb' 0 8) (v.extractLsb' 8 8) = v := u16be_be16 v

theorem be16_u16be (a b : Byte) : be16 (u16be a b) = [a, b] := by
  simp only [be16, u16be, List.cons.injEq, and_true]
  constructor <;> apply BitVec.eq_of_getLsbD_eq <;> intro i hi <;>
    rw [BitVec.getLsbD_extractLsb', BitVec.getLsbD_append] <;> simp [hi]

theorem le16_u16le (a b : Byte) : le16 (u16le a b) = [a, b] := by
  have h := be16_u16be b a
  simp only [be16, List.cons.injEq, and_true] at h
  simp [le16, u16le, show b ++ a = u16be b a from rfl, h.1, h.2]

/-! ### The recording of outcomes -/

theorem decodeFrame_eq (s : State) (f : List Byte) :
    s.decodeFrame f = s.setResults ((classify f).record (checksumResults f)) := rfl

@[simp] theorem record_result (r : Results) (o : Reply) :
    (o.record r).result = match o with
      | .ok _ => .ok
      | .writeAck _ _ => .writeAck
      | .deviceError _ => .deviceError
      | .checksumMismatch => .checksumMismatch
      | .truncated => .truncated
      | .unexpected => .unexpected := by
  cases o <;> rfl

@[simp] theorem record_chk (r : Results) (o : Reply) : (o.record r).chk = r.chk := by cases o <;> rfl

@[simp] theorem record_crcrx (r : Results) (o : Reply) : (o.record r).crcrx = r.crcrx := by cases o <;> rfl

@[simp] theorem record_crccalc (r : Results) (o : Reply) : (o.record r).crccalc = r.crccalc := by cases o <;> rfl

/-- An outcome is always something: `RESULT` is never `NONE` after a recording (R88). -/
theorem record_result_ne_none (r : Results) (o : Reply) : (o.record r).result ≠ .none := by cases o <;> simp

@[simp] theorem checksumResults_chk (f : List Byte) : (checksumResults f).chk = .none := by
  unfold checksumResults; split <;> rfl

/-! ### The request buffer -/

/-- `TXBUF` as CHECK and XFER see it after the framer has built a frame of 8 bytes in it. -/
theorem txBytes_setRequest (h : s.txbuf.wf Config.txCap = true) (hf : f.length = 8) : (s.setRequest f).txBytes = f := by
  have := Memory.readBytes_writeBytes (f := f) (i := 0) h (by simp [hf, Config.txCap])
  simpa [State.txBytes, hf, Config.txCap] using this

theorem wf_setRequest (h : s.txbuf.wf Config.txCap = true) (hf : f.length = 8) :
    (s.setRequest f).txbuf.wf Config.txCap = true :=
  Memory.wf_writeBytes h (by simp [hf, Config.txCap])

/-- One byte of the request just built. -/
theorem txbuf_read_setRequest (h : s.txbuf.wf Config.txCap = true) (hf : f.length = 8) {j : Nat} (hj : j < 8) :
    (s.setRequest f).txbuf.read j = byteAt f j := by
  have := Memory.read_writeBytes (f := f) (i := 0) (j := j) h (by simp [hf, Config.txCap]) (by omega)
  simpa [byteAt] using this

/-! ### The receiver -/

/-- The bytes held after one more has been stored. -/
theorem rxBytes_storeRx (h : s.rxbuf.wf Config.rxCap = true) (b : Byte) :
    (s.storeRx b).rxBytes = s.rxBytes ++ [b] := by
  simp only [State.rxBytes, State.storeRx_rxbuf, State.storeRx_rxlen, Memory.readBytes_succ]
  rw [Memory.readBytes_write_above (by omega), Nat.zero_add, Memory.read_write_self h]

/-- All that RxByte can do: nothing where it is not enabled (R87), a byte stored and more to come, a byte stored and the frame
complete (R88), or the fault that no reachable state raises. -/
theorem execRxByte_cases (s : State) :
    (s.rxstate = .idle ∧ execRxByte s = .next s) ∨
    (s.rxstate = .receiving ∧ s.rxfifo = [] ∧ execRxByte s = .next s) ∨
    (∃ b q, s.rxstate = .receiving ∧ s.rxfifo = b :: q ∧ s.rxlen < 260 ∧ s.rxlen + 1 ≠ s.rxexp ∧
      execRxByte s = .next ((s.setFifo q).storeRx b)) ∨
    (∃ b q, s.rxstate = .receiving ∧ s.rxfifo = b :: q ∧ s.rxlen < 260 ∧ s.rxlen + 1 = s.rxexp ∧
      execRxByte s = .next
        ((((s.setFifo q).storeRx b).decodeFrame ((s.setFifo q).storeRx b).rxBytes).setRxState .idle)) ∨
    (s.rxstate = .receiving ∧ s.rxfifo ≠ [] ∧ 260 ≤ s.rxlen ∧ execRxByte s = .fault (.bufferRange s.rxlen)) := by
  cases hr : s.rxstate with
  | idle => exact .inl ⟨rfl, by simp [execRxByte, State.busy, hr]⟩
  | receiving =>
    right
    cases hq : s.rxfifo with
    | nil => exact .inl ⟨rfl, rfl, by simp [execRxByte, State.busy, hr, hq]⟩
    | cons b q =>
      right
      by_cases hl : s.rxlen < 260
      · by_cases he : s.rxlen + 1 = s.rxexp
        · exact .inr (.inl ⟨b, q, rfl, rfl, hl, he, by
            simp [execRxByte, State.busy, hr, hq, hl, Config.rxCap, State.completeReception, he]⟩)
        · exact .inl ⟨b, q, rfl, rfl, hl, he, by
            simp [execRxByte, State.busy, hr, hq, hl, Config.rxCap, State.completeReception, he]⟩
      · exact .inr (.inr ⟨rfl, by simp, by omega, by simp [execRxByte, State.busy, hr, hq, hl, Config.rxCap]⟩)

/-- All that RxTimeout can do. -/
theorem execRxTimeout_cases (s : State) :
    (s.rxstate = .receiving ∧ s.rxfifo = [] ∧ execRxTimeout s = .next s.timeOut) ∨
    ((s.rxstate = .idle ∨ s.rxfifo ≠ []) ∧ execRxTimeout s = .next s) := by
  cases hr : s.rxstate <;> cases hq : s.rxfifo <;> simp [execRxTimeout, State.busy, hr, hq]

end Sys2Proof.Machine
end

