-- ==== Sys2Proof/Laws/Exec.lean ====
section
/-! SUPPORT. What each operation answers, in terms of the shared operations, and what a step can be. -/

namespace Sys2Proof.Machine

variable {s t : State}

/-! ### Each operation, once -/

theorem exec_nop (s : State) : exec .nop s = .next s.accept := rfl

theorem exec_crcInit (s : State) : exec .crcInit s = .next (s.setCrcacc Config.crcInit).accept := rfl

theorem exec_crcByteCmd (s : State) :
    exec .crcByteCmd s = .next (s.setCrcacc (crcByte s.crcacc s.crcOperand)).accept := rfl

theorem exec_encRead (s : State) :
    exec .encRead s =
      .next (if s.mayEncode then (s.buildRequest s.argDev Config.fcRead s.argAddr s.argData).accept else s.refuse) := by
  rw [exec, execEncRead, command_eq]; rfl

theorem exec_encWrite (s : State) :
    exec .encWrite s =
      .next (if s.mayEncode then (s.buildRequest s.argDev Config.fcWrite s.argAddr s.argData).accept else s.refuse) := by
  rw [exec, execEncWrite, command_eq]; rfl

theorem exec_xfer (s : State) : exec .xfer s = .next (if s.mayTransfer then s.transfer.accept else s.refuse) := by
  rw [exec, execXfer, command_eq]

theorem exec_decodeCmd (s : State) :
    exec .decodeCmd s = .next (if s.mayDecode then (s.decodeFrame s.rxBytes).accept else s.refuse) := by
  rw [exec, execDecodeCmd, command_eq]

theorem exec_check (s : State) :
    exec .check s =
      .next (if s.mayCheck then
        (s.setResults { s.res with chk := if s.consistent then .pass else .violation }).accept else s.refuse) := by
  rw [exec, execCheck, command_eq]

theorem exec_cmdReserved (low : BitVec 3) (s : State) : exec (.cmdReserved low) s = .next s.refuse := rfl

theorem exec_readReq (dev : Byte) (start count crc : Word) (s : State) :
    exec (.readReq dev start count crc) s =
      .next (if s.mayEncode then
        ((s.setOperands dev start count).buildRequest dev Config.fcRead start count).accept
        else (s.setOperands dev start count).refuse) := by
  rw [exec, execReadReq, command_eq]

theorem exec_writeReq (dev : Byte) (reg val crc : Word) (s : State) :
    exec (.writeReq dev reg val crc) s =
      .next (if s.mayEncode then
        ((s.setOperands dev reg val).buildRequest dev Config.fcWrite reg val).accept
        else (s.setOperands dev reg val).refuse) := by
  rw [exec, execWriteReq, command_eq]

/-- A command written to `CMD` always answers a next state (R136). -/
theorem exec_decodeCommand_next (v : Word) (s : State) : ∃ t, exec (decodeCommand v) s = .next t := by
  unfold decodeCommand
  split <;>
    simp [exec, execNop, execCrcInit, execCrcByteCmd, execEncRead, execEncWrite, execXfer, execDecodeCmd, execCheck,
      execCmdReserved, command_eq]

/-! ### A step -/

theorem step_of_nil (h : s.inputs = []) : step s = exec .rxByte s := by simp [step, h]

theorem step_of_cons {e : Input} {l : List Input} (h : s.inputs = e :: l) : step s = runInput e (s.setInputs l) := by
  simp [step, h]

theorem runInput_of_operation {e : Input} {i : Instr} (h : e.operation = some i) (s : State) :
    runInput e s = exec i s := by
  simp [runInput, h]

theorem runInput_of_plain {e : Input} (h : e.operation = none) (s : State) :
    runInput e s = .next (e.plainEffect s) := by
  simp [runInput, h]

/-- A step that answers a next state ran an operation on the state without the input taken, or a plain effect. -/
theorem step_cases (h : step s = .next t) :
    (s.inputs = [] ∧ exec .rxByte s = .next t) ∨
    (∃ e l i, s.inputs = e :: l ∧ e.operation = some i ∧ exec i (s.setInputs l) = .next t) ∨
    (∃ e l, s.inputs = e :: l ∧ e.operation = none ∧ t = e.plainEffect (s.setInputs l)) := by
  cases hi : s.inputs with
  | nil => exact .inl ⟨rfl, by rw [← step_of_nil hi, h]⟩
  | cons e l =>
    right
    rw [step_of_cons hi] at h
    cases ho : e.operation with
    | some i => exact .inl ⟨e, l, i, rfl, ho, by rw [← runInput_of_operation ho, h]⟩
    | none =>
      refine .inr ⟨e, l, rfl, ho, ?_⟩
      rw [runInput_of_plain ho] at h
      exact (Host.Outcome.next.inj h).symm

/-- A run of one step more. -/
theorem run_succ {k : Nat} (h : step s = .next t) : Host.Core.run core (k + 1) s = Host.Core.run core k t := by
  simp [Host.Core.run, core, h]

/-- A run in two parts. -/
theorem run_add {j k : Nat} (h : Host.Core.run core j s = .next t) :
    Host.Core.run core (j + k) s = Host.Core.run core k t := by
  induction j generalizing s with
  | zero =>
    have : s = t := Host.Outcome.next.inj h
    rw [this, Nat.zero_add]
  | succ j ih =>
    rw [show j + 1 + k = j + k + 1 by omega]
    cases hs : step s with
    | next u =>
      rw [run_succ hs] at h ⊢
      exact ih h
    | fault r => simp [Host.Core.run, core, hs] at h
    | refused r => simp [Host.Core.run, core, hs] at h

/-- Only these operations can be launched by an input: a command, a request frame, a reply frame, a receiver's step. -/
theorem operation_cases {e : Input} {i : Instr} (h : e.operation = some i) :
    (∃ v, e = .hostWrite cmdRegister v ∧ i = decodeCommand v) ∨
    (e = .receive ∧ i = .rxByte) ∨
    (e = .linkTimeout ∧ i = .rxTimeout) ∨
    (∃ f, e = .frame .toDevice f ∧ decodeRequest f = .ok i) ∨
    (∃ f, e = .frame .toBlock f ∧ decodeReply f = .ok i) := by
  cases e with
  | hostWrite r v =>
    by_cases hr : r = cmdRegister
    · subst hr
      simp only [Input.operation, if_true, Option.some.injEq] at h
      exact .inl ⟨v, rfl, h.symm⟩
    · simp [Input.operation, hr] at h
  | receive => exact .inr (.inl ⟨rfl, by simpa [Input.operation] using h.symm⟩)
  | linkTimeout => exact .inr (.inr (.inl ⟨rfl, by simpa [Input.operation] using h.symm⟩))
  | frame dir f =>
    cases dir with
    | toDevice =>
      refine .inr (.inr (.inr (.inl ⟨f, rfl, ?_⟩)))
      cases hd : decodeRequest f with
      | error e => simp [Input.operation, hd, Except.toOption] at h
      | ok j => simp only [Input.operation, hd, Except.toOption, Option.some.injEq] at h; rw [h]
    | toBlock =>
      refine .inr (.inr (.inr (.inr ⟨f, rfl, ?_⟩)))
      cases hd : decodeReply f with
      | error e => simp [Input.operation, hd, Except.toOption] at h
      | ok j => simp only [Input.operation, hd, Except.toOption, Option.some.injEq] at h; rw [h]
  | hostRead _ => simp [Input.operation] at h
  | deviceSend _ => simp [Input.operation] at h
  | linkFlush => simp [Input.operation] at h
  | reset => simp [Input.operation] at h

/-- A request frame decodes to one of the two request formats. -/
theorem decodeRequest_cases {f : List Byte} {i : Instr} (h : decodeRequest f = .ok i) :
    (∃ dev a v c, i = .readReq dev a v c) ∨ (∃ dev a v c, i = .writeReq dev a v c) := by
  unfold decodeRequest at h
  split at h
  · split at h
    · exact .inl ⟨_, _, _, _, (Except.ok.inj h).symm⟩
    · split at h
      · exact .inr ⟨_, _, _, _, (Except.ok.inj h).symm⟩
      · simp at h
  · simp at h

/-- The bytes of a frame that decodes as a reply are the bytes its operation sends. -/
theorem exec_reply {f : List Byte} {i : Instr} (h : decodeReply f = .ok i) (s : State) :
    ∃ f', encode i = some (.frame .toBlock f') ∧ exec i s = .next (s.deviceSend f') := by
  unfold decodeReply at h
  repeat' split at h
  all_goals first
    | exact ⟨_, by rw [← Except.ok.inj h]; rfl, by rw [← Except.ok.inj h]; rfl⟩
    | simp at h

end Sys2Proof.Machine
end

