-- ==== Sys2Proof/Laws/PerInstr.lean ====
section
/-! SUPPORT. Family TableMatch: the encoding of every well-formed instruction matches its row's `match` and `mask` in
spec/opcode_table.json (30_encoding.md R64). -/

namespace Sys2Proof.Laws.TableMatch

open Sys2Proof.Machine

/-- The 16 bits that the table's `match` and `mask` are on: the value written to `CMD`, or `(byte 0 << 8) OR byte 1`. -/
def header : Code → Word
  | .command v => v
  | .frame _ f => u16be (byteAt f 0) (byteAt f 1)

/-- `mask` and `match` of the row, as the table has them; none for the six rows that no bit pattern selects. -/
def row : Instr → Option (Word × Word)
  | .nop => some (0x000F#16, 0x0000#16)
  | .crcInit => some (0x000F#16, 0x0001#16)
  | .crcByteCmd => some (0x000F#16, 0x0002#16)
  | .encRead => some (0x000F#16, 0x0003#16)
  | .encWrite => some (0x000F#16, 0x0004#16)
  | .xfer => some (0x000F#16, 0x0005#16)
  | .decodeCmd => some (0x000F#16, 0x0006#16)
  | .check => some (0x000F#16, 0x0007#16)
  | .cmdReserved _ => some (0x0008#16, 0x0008#16)
  | .readReq _ _ _ _ => some (0x00FF#16, 0x0003#16)
  | .writeReq _ _ _ _ => some (0x00FF#16, 0x0006#16)
  | .errorReply _ _ _ _ => some (0x0080#16, 0x0080#16)
  | .readReply _ _ _ => some (0x00FF#16, 0x0003#16)
  | .writeReply _ _ _ _ => some (0x00FF#16, 0x0006#16)
  | .unknownReply _ _ _ _ => some (0x0000#16, 0x0000#16)
  | .crcRound _ => none
  | .crcByte _ _ => none
  | .crc16 _ => none
  | .rxByte => none
  | .rxTimeout => none
  | .decode _ => none

/-- The header under the row's mask. -/
def masked (i : Instr) : Option Word :=
  match encode i, row i with
  | some c, some (mask, _) => some (header c &&& mask)
  | _, _ => none

/-- What the row says it is. -/
def expected (i : Instr) : Option Word := (row i).map Prod.snd

def Statement (i : Instr) : Prop := masked i = expected i

/-- A header whose low byte is the function byte, under a mask of that byte. -/
theorem header_low (a b m : Byte) : u16be a b &&& (0#8 ++ m) = 0#8 ++ (b &&& m) := by
  apply BitVec.eq_of_getLsbD_eq
  intro i hi
  simp only [u16be, BitVec.getLsbD_and, BitVec.getLsbD_append]
  split <;> simp

theorem nop : Statement .nop := rfl
theorem crcInit : Statement .crcInit := rfl
theorem crcByteCmd : Statement .crcByteCmd := rfl
theorem encRead : Statement .encRead := rfl
theorem encWrite : Statement .encWrite := rfl
theorem xfer : Statement .xfer := rfl
theorem decodeCmd : Statement .decodeCmd := rfl
theorem check : Statement .check := rfl

theorem cmdReserved (low : BitVec 3) : Statement (.cmdReserved low) := by
  have h : ∀ low : BitVec 3, (0#12 ++ 1#1 ++ low) &&& 0x0008#16 = 0x0008#16 := by decide
  exact congrArg some (h low)

theorem readReq (dev : Byte) (start count crc : Word) : Statement (.readReq dev start count crc) :=
  congrArg some (header_low dev 0x03#8 0xFF#8)

theorem writeReq (dev : Byte) (reg val crc : Word) : Statement (.writeReq dev reg val crc) :=
  congrArg some (header_low dev 0x06#8 0xFF#8)

theorem errorReply (dev : Byte) (func : BitVec 7) (code : Byte) (crc : Word) :
    Statement (.errorReply dev func code crc) := by
  have h : (1#1 ++ func) &&& 0x80#8 = 0x80#8 := by revert func; decide
  exact congrArg some ((header_low dev (1#1 ++ func) 0x80#8).trans (by rw [h]; rfl))

theorem readReply (dev : Byte) (payload : List Byte) (crc : Word) : Statement (.readReply dev payload crc) :=
  congrArg some (header_low dev 0x03#8 0xFF#8)

theorem writeReply (dev : Byte) (reg val crc : Word) : Statement (.writeReply dev reg val crc) :=
  congrArg some (header_low dev 0x06#8 0xFF#8)

theorem unknownReply (dev func : Byte) (body : List Byte) (crc : Word) : Statement (.unknownReply dev func body crc) := by
  simp [Statement, masked, expected, row, encode]

theorem crcRound (a : Word) : Statement (.crcRound a) := rfl
theorem crcByte (a : Word) (b : Byte) : Statement (.crcByte a b) := rfl
theorem crc16 (bytes : List Byte) : Statement (.crc16 bytes) := rfl
theorem rxByte : Statement .rxByte := rfl
theorem rxTimeout : Statement .rxTimeout := rfl
theorem decode (bytes : List Byte) : Statement (.decode bytes) := rfl

end Sys2Proof.Laws.TableMatch
end

