-- ==== Sys2Proof/Tests/Slice0.lean ====
section
/-! SUPPORT. Tests. Expected values are those of spec/95_test_vectors.md (named V, S and P there) or are worked out by
hand from the encodings of 30_encoding.md. The theorems `witness_…` show states and operands that meet the hypotheses of the
obligation of that name. -/

namespace Sys2Proof.Tests

open Sys2Proof Sys2Proof.Machine

/-! ### States -/

/-- The state an outcome leads to. -/
def after : Host.Outcome State Fault Refusal → Option State
  | .next t => some t
  | .fault _ => none
  | .refused _ => none

/-- After reset, nothing waiting in the link. -/
def base : State := { State.reset with rxfifo := [] }

/-- The frame `f` held in `TXBUF`. -/
def withTx (f : List Byte) (s : State) : State := { s with txbuf := Memory.writeBytes [] 0 f, txlen := 8 }

/-- The bytes `f` held in `RXBUF`, out of `n` expected. -/
def withRx (f : List Byte) (n : Nat) (s : State) : State :=
  { s with rxbuf := Memory.writeBytes [] 0 f, rxlen := f.length, rxexp := n }

/-- V2.2: a read of one register. -/
def reqRead : List Byte := [0x01#8, 0x03#8, 0x00#8, 0x08#8, 0x00#8, 0x01#8, 0x05#8, 0xC8#8]

/-- V2.7: a write of 100 to register 0x30. -/
def reqWrite : List Byte := [0x01#8, 0x06#8, 0x00#8, 0x30#8, 0x00#8, 0x64#8, 0x88#8, 0x2E#8]

/-- V3.2: the reply with one register. -/
def repRead : List Byte := [0x01#8, 0x03#8, 0x02#8, 0x12#8, 0x34#8, 0xB5#8, 0x33#8]

/-- V3.7: an acknowledge that echoes 99. -/
def repEcho99 : List Byte := [0x01#8, 0x06#8, 0x00#8, 0x30#8, 0x00#8, 0x63#8, 0xC9#8, 0xEC#8]

/-- V3.8: a device error reply. -/
def repError : List Byte := [0x01#8, 0x83#8, 0x08#8, 0x40#8, 0xF6#8]

/-- A read request is held, `EXPBODY = 3`. -/
def readReady : State := withTx reqRead { base with argData := 0x0003#16 }

/-- A write request is held, `EXPBODY = 4`. -/
def writeReady : State := withTx reqWrite { base with argData := 0x0004#16 }

/-- Six of the seven bytes of `repRead` are held, the last one waits. -/
def almost : State :=
  withRx (repRead.take 6) 7 { readReady with rxstate := .receiving, rxfifo := [0x33#8, 0x77#8] }

/-- In flight, nothing received, nothing waiting. -/
def waiting : State := withRx [] 7 { readReady with rxstate := .receiving }

/-- `OK` is recorded. -/
def okState : State :=
  withRx repRead 7
    { readReady with res := { Results.cleared with result := .ok, paylen := 2#8, crcrx := 0x33B5#16, crccalc := 0x33B5#16 } }

/-- `WRITE_ACK` is recorded, for the wrong echo. -/
def ackState : State :=
  withRx repEcho99 8
    { writeReady with
      res :=
        { Results.cleared with
          result := .writeAck, ackaddr := 0x0030#16, ackval := 0x0063#16, crcrx := 0xECC9#16, crccalc := 0xECC9#16 } }

/-- `DEVICE_ERROR` is recorded. -/
def errState : State :=
  withRx repError 7
    { readReady with
      res :=
        { Results.cleared with
          result := .deviceError, errcode := 0x08#8, reqcrc := true, crcrx := 0xF640#16, crccalc := 0xF640#16 } }

/-- A check that the invariant holds of a state written out. -/
def invCheck (s : State) : Bool :=
  s.txbuf.wf Config.txCap && s.rxbuf.wf Config.rxCap && decide (s.txlen = 0 ∨ s.txlen = 8) &&
  decide (s.txlen = 8 →
    checksumValid s.txBytes = true ∧ (s.reqFunction = Config.fcRead ∨ s.reqFunction = Config.fcWrite)) &&
  decide (s.rxlen ≤ s.rxexp) && decide (s.rxexp = 0 ∨ (4 ≤ s.rxexp ∧ s.rxexp ≤ Config.rxCap)) &&
  decide (s.rxstate = .receiving → s.rxlen < s.rxexp ∧ s.txlen = 8 ∧ s.res = .cleared) &&
  decide (s.rxstate = .idle →
    { s.res with chk := .none } = Results.cleared ∨
    { s.res with chk := .none } = Reply.truncated.record .cleared ∨
    { s.res with chk := .none } = decodeResults s.rxBytes) &&
  decide (s.res.chk ≠ .none → s.normalReply = true)

theorem inv_of_check {s : State} (h : invCheck s = true) : Inv s := by
  simp only [invCheck, Bool.and_eq_true, decide_eq_true_eq] at h
  obtain ⟨⟨⟨⟨⟨⟨⟨⟨h1, h2⟩, h3⟩, h4⟩, h5⟩, h6⟩, h7⟩, h8⟩, h9⟩ := h
  exact ⟨h1, h2, h3, h4, h5, h6, h7, h8, h9⟩

theorem inv_base : Inv base := inv_of_check (by decide +kernel)
theorem inv_readReady : Inv readReady := inv_of_check (by decide +kernel)
theorem inv_writeReady : Inv writeReady := inv_of_check (by decide +kernel)
theorem inv_almost : Inv almost := inv_of_check (by decide +kernel)
theorem inv_waiting : Inv waiting := inv_of_check (by decide +kernel)
theorem inv_okState : Inv okState := inv_of_check (by decide +kernel)
theorem inv_ackState : Inv ackState := inv_of_check (by decide +kernel)
theorem inv_errState : Inv errState := inv_of_check (by decide +kernel)

/-! ### WellFormed: each check refuses an ill-formed term -/

theorem test_wf_readReq_crc :
    ¬ WellFormed (.readReq 0x01#8 0x1234#16 0x007D#16 0xC15D#16) ∧
    WellFormed (.readReq 0x01#8 0x1234#16 0x007D#16 0x5DC1#16) := by decide +kernel

theorem test_wf_writeReq_crc :
    ¬ WellFormed (.writeReq 0x01#8 0x0030#16 0x0064#16 0x2E89#16) ∧
    WellFormed (.writeReq 0x01#8 0x0030#16 0x0064#16 0x2E88#16) := by decide +kernel

theorem test_wf_errorReply_crc :
    ¬ WellFormed (.errorReply 0x01#8 0x03#7 0x08#8 0xF740#16) ∧
    WellFormed (.errorReply 0x01#8 0x03#7 0x08#8 0xF640#16) := by decide +kernel

theorem test_wf_readReply_crc :
    ¬ WellFormed (.readReply 0x01#8 [0x12#8, 0x34#8] 0x33B4#16) ∧
    WellFormed (.readReply 0x01#8 [0x12#8, 0x34#8] 0x33B5#16) := by decide +kernel

theorem test_wf_readReply_length :
    ¬ WellFormed (.readReply 0x01#8 (List.replicate 256 0#8) (crc16 (readReplyHead 0x01#8 (List.replicate 256 0#8)))) := by
  decide +kernel

theorem test_wf_writeReply_crc :
    ¬ WellFormed (.writeReply 0x01#8 0x0030#16 0x0063#16 0x2E88#16) ∧
    WellFormed (.writeReply 0x01#8 0x0030#16 0x0063#16 0xECC9#16) := by decide +kernel

theorem test_wf_unknownReply_crc :
    ¬ WellFormed (.unknownReply 0x01#8 0x04#8 [] 0xE300#16) ∧
    WellFormed (.unknownReply 0x01#8 0x04#8 [] 0xE301#16) := by decide +kernel

/-- A function byte of another format is no unknown reply, whatever its checksum. -/
theorem test_wf_unknownReply_function :
    ¬ WellFormed (.unknownReply 0x01#8 0x83#8 [] 0x8141#16) ∧
    ¬ WellFormed (.unknownReply 0x01#8 0x03#8 [] 0x2140#16) ∧
    ¬ WellFormed (.unknownReply 0x01#8 0x06#8 [] 0x2280#16) := by decide +kernel

theorem test_wf_decode_length :
    ¬ WellFormed (.decode (List.replicate 261 0#8)) ∧ WellFormed (.decode (List.replicate 260 0#8)) := by
  decide +kernel

/-! ### Decoding of words written out from 30_encoding.md -/

/-- R62: the eight codes, with ignored bits 15 to 4 of every kind; R63: a reserved code. -/
theorem test_decode_commands :
    decodeTableWord 16 0b0000000000000000 = some .nop ∧
    decodeTableWord 16 0b1111111111110000 = some .nop ∧
    decodeTableWord 16 0b0000000000000001 = some .crcInit ∧
    decodeTableWord 16 0b1000000000000010 = some .crcByteCmd ∧
    decodeTableWord 16 0b0000000100000011 = some .encRead ∧
    decodeTableWord 16 0b0000000000010100 = some .encWrite ∧
    decodeTableWord 16 0b1010101010100101 = some .xfer ∧
    decodeTableWord 16 0b0101010101010110 = some .decodeCmd ∧
    decodeTableWord 16 0b0000000000000111 = some .check ∧
    decodeTableWord 16 0b0000000000001000 = some (.cmdReserved 0b000#3) ∧
    decodeTableWord 16 0b0000000000001101 = some (.cmdReserved 0b101#3) ∧
    decodeTableWord 16 0b1111111111111111 = some (.cmdReserved 0b111#3) := by decide

/-- R52, V2.3: device 01, function 03, start 1234, count 007D, checksum C1 5D. -/
theorem test_decode_readReq :
    decodeRequest
      [0b00000001#8, 0b00000011#8, 0b00010010#8, 0b00110100#8, 0b00000000#8, 0b01111101#8, 0b11000001#8, 0b01011101#8] =
      .ok (.readReq 0x01#8 0x1234#16 0x007D#16 0x5DC1#16) := by rfl

/-- R53, V2.9. -/
theorem test_decode_writeReq :
    decodeRequest
      [0b11111111#8, 0b00000110#8, 0b10101011#8, 0b11001101#8, 0b11101111#8, 0b00000001#8, 0b10100000#8, 0b00111111#8] =
      .ok (.writeReq 0xFF#8 0xABCD#16 0xEF01#16 0x3FA0#16) := by rfl

/-- R56, V3.8. -/
theorem test_decode_errorReply :
    decodeReply [0b00000001#8, 0b10000011#8, 0b00001000#8, 0b01000000#8, 0b11110110#8] =
      .ok (.errorReply 0x01#8 0x03#7 0x08#8 0xF640#16) := by rfl

/-- R54, V3.2. -/
theorem test_decode_readReply :
    decodeReply
      [0b00000001#8, 0b00000011#8, 0b00000010#8, 0b00010010#8, 0b00110100#8, 0b10110101#8, 0b00110011#8] =
      .ok (.readReply 0x01#8 [0x12#8, 0x34#8] 0x33B5#16) := by rfl

/-- R55, V3.7. -/
theorem test_decode_writeReply :
    decodeReply
      [0b00000001#8, 0b00000110#8, 0b00000000#8, 0b00110000#8, 0b00000000#8, 0b01100011#8, 0b11001001#8, 0b11101100#8] =
      .ok (.writeReply 0x01#8 0x0030#16 0x0063#16 0xECC9#16) := by rfl

/-- R60, V3.11d. -/
theorem test_decode_unknownReply :
    decodeReply [0b00000001#8, 0b01111111#8, 0b00000000#8, 0b00000000#8, 0b00110000#8, 0b00000000#8] =
      .ok (.unknownReply 0x01#8 0x7F#8 [0x00#8, 0x00#8] 0x0030#16) := by rfl

/-- Frames of no format of their direction are rejected by name. -/
theorem test_decode_rejects :
    decodeRequest [0x01#8, 0x83#8, 0x00#8, 0x00#8, 0x00#8, 0x00#8, 0x00#8, 0x00#8] = .error .notARequest ∧
    decodeRequest [0x01#8, 0x03#8, 0x00#8] = .error .wrongLength ∧
    decodeReply [0x01#8, 0x7E#8, 0x80#8] = .error .tooShort ∧
    decodeReply [0x01#8, 0x83#8, 0x08#8, 0x00#8, 0xF7#8, 0xF0#8] = .error .wrongLength ∧
    decodeReply [0x01#8, 0x03#8, 0x04#8, 0x12#8, 0x34#8, 0x55#8, 0x32#8] = .error .wrongLength ∧
    decodeReply [0x01#8, 0x06#8, 0x00#8, 0x30#8, 0x00#8, 0x0D#8, 0x48#8] = .error .wrongLength := by
  refine ⟨?_, ?_, ?_, ?_, ?_, ?_⟩ <;> rfl

/-- The table's words of the wire rows (log entry 6): header `(byte 0 << 8) OR byte 1`, later bytes counting on. -/
theorem test_decode_table_frames :
    decodeTableWord 64 0x5DC17D0034120103 = some (.readReq 0x01#8 0x1234#16 0x007D#16 0x5DC1#16) ∧
    decodeTableWord 40 0xF640080183 = some (.errorReply 0x01#8 0x03#7 0x08#8 0xF640#16) ∧
    decodeTableWord 56 0x33B53412020103 = some (.readReply 0x01#8 [0x12#8, 0x34#8] 0x33B5#16) := by
  decide +kernel

/-! ### The CRC unit -/

/-- V1.1, V1.4. -/
theorem test_crcRound_values :
    crcRound 0x4002#16 = 0x2001#16 ∧ crcRound 0xA001#16 = 0xF001#16 ∧
    crcByte 0x1234#16 0x56#8 = 0xE993#16 ∧ crcByte 0xA001#16 0x01#8 = 0x00A0#16 := by decide +kernel

/-- V1.5. -/
theorem test_crc16_values :
    crc16 [0x61#8, 0x62#8] = 0xC9A9#16 ∧ crc16 [0x01#8, 0x03#8] = 0x2140#16 ∧ crc16 [0x03#8, 0x01#8] = 0x80C0#16 ∧
    crc16 [0x01#8, 0x83#8, 0x08#8] = 0xF640#16 := by decide +kernel

/-- V1.11: only the low byte of `ARG_DATA` is absorbed, also while `BUSY`; CRC_INIT sets 0xFFFF again. -/
theorem test_crc_commands :
    (after (exec .crcByteCmd { waiting with argData := 0x1201#16, cmderr := true })).map (fun t => (t.crcacc, t.cmderr)) =
      some (0x807E#16, false) ∧
    (after (exec .crcByteCmd { base with argData := 0x1201#16, crcacc := 0x807E#16 })).map (·.crcacc) = some 0xE0C1#16 ∧
    (after (exec .crcInit { base with crcacc := 0x807E#16 })).map (·.crcacc) = some 0xFFFF#16 := by decide +kernel

/-- The three functions as operations. -/
theorem test_crc_functions :
    (after (exec (.crcRound 0xFFFF#16) base)).map (·.retval) = some 0xDFFE#16 ∧
    (after (exec (.crcByte 0x004B#16 0x4B#8) base)).map (·.retval) = some 0x0000#16 ∧
    (after (exec (.crc16 [0x41#8]) base)).map (fun t => (t.retval, t.crcacc)) = some (0x707F#16, 0xFFFF#16) := by
  decide +kernel

/-! ### The framer -/

/-- V2.4: no operand value is refused; the whole request, and only the request, changes. -/
theorem test_encRead :
    (after (exec .encRead { readReady with argDev := 0xF7#8, argAddr := 0xFFFF#16, argData := 0xFFFF#16 })).map
      (fun t => (t.txBytes, t.txlen, t.txstream)) =
      some ([0xF7#8, 0x03#8, 0xFF#8, 0xFF#8, 0xFF#8, 0xFF#8, 0x50#8, 0xC8#8], 8, []) := by decide +kernel

/-- V2.8. -/
theorem test_encWrite :
    (after (exec .encWrite { base with argDev := 0x01#8, argAddr := 0x0001#16, argData := 0x04D2#16 })).map State.txBytes =
      some [0x01#8, 0x06#8, 0x00#8, 0x01#8, 0x04#8, 0xD2#8, 0x5A#8, 0x97#8] := by decide +kernel

/-- R68: both are refused while `BUSY`, and the request stays. -/
theorem test_enc_busy :
    exec .encRead waiting = .next { waiting with cmderr := true } ∧
    exec .encWrite waiting = .next { waiting with cmderr := true } := ⟨rfl, rfl⟩

/-- P6: NOP clears a refusal; a reserved code sets one. -/
theorem test_nop_reserved :
    exec .nop { base with cmderr := true } = .next base ∧
    exec (.cmdReserved 0b110#3) base = .next { base with cmderr := true } := ⟨rfl, rfl⟩

/-- Log entry 4, V2.1. -/
theorem test_readReq :
    (after (exec (.readReq 0x01#8 0x0000#16 0x0002#16 0x0BC4#16) base)).map (fun t => (t.argDev, t.argData, t.txBytes)) =
      some (0x01#8, 0x0002#16, [0x01#8, 0x03#8, 0x00#8, 0x00#8, 0x00#8, 0x02#8, 0xC4#8, 0x0B#8]) := by decide +kernel

theorem test_writeReq :
    (after (exec (.writeReq 0x01#8 0x0030#16 0x0064#16 0x2E88#16) base)).map (fun t => (t.argAddr, t.txBytes)) =
      some (0x0030#16, reqWrite) := by decide +kernel

/-! ### The link -/

/-- The four reply frames, byte by byte: V3.8, V3.2, V3.7, V3.11. -/
theorem test_replies :
    (after (exec (.errorReply 0x01#8 0x03#7 0x08#8 0xF640#16) { base with rxfifo := [0xAA#8] })).map (·.rxfifo) =
      some (0xAA#8 :: repError) ∧
    (after (exec (.readReply 0x01#8 [0x12#8, 0x34#8] 0x33B5#16) base)).map (·.rxfifo) = some repRead ∧
    (after (exec (.writeReply 0x01#8 0x0030#16 0x0063#16 0xECC9#16) base)).map (·.rxfifo) = some repEcho99 ∧
    (after (exec (.unknownReply 0x01#8 0x04#8 [0x02#8, 0x00#8, 0x00#8] 0x30B9#16) base)).map (·.rxfifo) =
      some [0x01#8, 0x04#8, 0x02#8, 0x00#8, 0x00#8, 0xB9#8, 0x30#8] := by decide +kernel

/-! ### The validator -/

/-- P1, V2.1: an accepted XFER. -/
theorem test_xfer :
    (after (exec .xfer readReady)).map (fun t => (t.txstream, t.rxexp, t.status)) = some (reqRead, 7, 0x0003#16) := by
  decide +kernel

/-- P6: 257 is refused, 256 accepted with `RXEXP = 260`; nothing encoded is refused. -/
theorem test_xfer_limits :
    (after (exec .xfer { readReady with argData := 0x0101#16 })).map (fun t => (t.cmderr, t.txstream)) = some (true, []) ∧
    (after (exec .xfer { readReady with argData := 0x0100#16 })).map (·.rxexp) = some 260 ∧
    (after (exec .xfer { base with argData := 0x0004#16 })).map State.status = some 0x0004#16 := by decide +kernel

/-- V3.2 by the completing byte; the byte after it stays in the queue. -/
theorem test_rxByte_completes :
    (after (exec .rxByte almost)).map (fun t => (t.status, t.res.paylen, t.res.crcrx, t.rxfifo)) =
      some (0x0012#16, 2#8, 0x33B5#16, [0x77#8]) := by decide +kernel

/-- A byte before the boundary. -/
theorem test_rxByte_stores :
    (after (exec .rxByte { waiting with rxfifo := [0x01#8] })).map (fun t => (t.rxBytes, t.rxstate, t.res)) =
      some ([0x01#8], .receiving, .cleared) := by decide +kernel

/-- P3: the timeout. -/
theorem test_rxTimeout :
    (after (exec .rxTimeout waiting)).map (fun t => (t.status, t.rxexp, t.rxlen)) = some (0x0052#16, 7, 0) := by
  decide +kernel

/-- V3.13 and V3.21. -/
theorem test_decode :
    (after (exec (.decode [0x01#8, 0x83#8, 0x08#8, 0x40#8, 0xF7#8]) errState)).map (·.res) =
      some { Results.cleared with result := .checksumMismatch, crcrx := 0xF740#16, crccalc := 0xF640#16 } ∧
    (after (exec (.decode [0x01#8, 0x06#8, 0x00#8, 0x30#8, 0x00#8, 0x0D#8, 0x48#8]) base)).map (·.res) =
      some { Results.cleared with result := .truncated, crcrx := 0x480D#16, crccalc := 0x480D#16 } := by decide +kernel

/-- P3: DECODE of the error reply; V3.27b: straight after reset. -/
theorem test_decodeCmd :
    (after (exec .decodeCmd (withRx repError 9 readReady))).map (fun t => (t.status, t.res.errcode)) =
      some (0x003A#16, 0x08#8) ∧
    (after (exec .decodeCmd base)).map State.status = some 0x0050#16 := by decide +kernel

/-- P5 and P2: PASS, VIOLATION. -/
theorem test_check :
    (after (exec .check okState)).map State.status = some 0x0112#16 ∧
    (after (exec .check ackState)).map State.status = some 0x0222#16 := by decide +kernel

/-- P3: refused without a normal reply. -/
theorem test_check_refused : (after (exec .check errState)).map State.status = some 0x003E#16 := by decide +kernel

/-! ### The host registers and the step -/

/-- V2.16: the window at 7 and at 8. -/
theorem test_window :
    { readReady with bufidx := 7#9 }.readRegister 0x07 = 0x00C8#16 ∧
    { readReady with bufidx := 8#9 }.readRegister 0x07 = 0x0000#16 := by decide +kernel

/-- A write keeps the register's own bits (R12). -/
theorem test_register_write :
    (after (step { base with inputs := [.hostWrite 0x06 0xFE05#16] })).map (·.bufidx) = some 0x005#9 ∧
    (after (step { base with inputs := [.hostWrite 0x01 0x12F7#16] })).map (·.argDev) = some 0xF7#8 := by decide +kernel

/-- A word placed by `withFetchWord` is what the next step runs. -/
theorem test_fetch :
    (after (step (readReady.withFetchWord 16 0xFFF5))).map (·.txstream) = some reqRead ∧
    (after (step (base.withFetchWord 40 0xF640080183))).map (·.rxfifo) = some repError := by decide +kernel

/-! ### Witnesses: the hypotheses of the obligations can be met, clause by clause -/

theorem witness_ChecksumResidueIsZero :
    crc16 ([] ++ [0xFF#8, 0xFF#8]) = 0x0000#16 ∧ crc16 ([0x00#8] ++ [0xBF#8, 0x40#8]) = 0x0000#16 ∧
    2 ≤ [0xFF#8, 0xFF#8].length ∧ crcReceived [0xFF#8, 0xFF#8] = crcComputed [0xFF#8, 0xFF#8] := by decide +kernel

/-- The first and the last bit of a frame, and the last byte of its checksum field. -/
theorem witness_SingleBitFlipIsAlwaysDetected :
    2 ≤ repError.length ∧ crcReceived repError = crcComputed repError ∧ 0 < repError.length ∧ 0 < 8 ∧
    4 < repError.length ∧ 7 < 8 ∧ crcReceived [0xFF#8, 0xFF#8] = crcComputed [0xFF#8, 0xFF#8] := by decide +kernel

/-- `d` empty, and one byte. -/
theorem witness_HostDrivenChecksumIsCrc16 :
    (∃ s : State, s.inputs = .hostWrite 0x00 0x0001#16 ::
      (([] : List Byte).flatMap (fun b => [.hostWrite 0x03 (b.setWidth 16), .hostWrite 0x00 0x0002#16]) ++ [])) ∧
    (∃ s : State, s.inputs = .hostWrite 0x00 0x0001#16 ::
      ([0x31#8].flatMap (fun b => [.hostWrite 0x03 (b.setWidth 16), .hostWrite 0x00 0x0002#16]) ++ [.receive])) :=
  ⟨⟨{ base with inputs := [.hostWrite 0x00 0x0001#16] }, rfl⟩,
    ⟨{ waiting with
        inputs := [.hostWrite 0x00 0x0001#16, .hostWrite 0x03 0x0031#16, .hostWrite 0x00 0x0002#16, .receive] }, rfl⟩⟩

/-- Each of the three ways. -/
theorem witness_OnlyCrcCommandsWriteTheAccumulator :
    (∃ s t : State, exec .crcInit s = .next t ∧ t.crcacc ≠ s.crcacc) ∧
    (∃ s t : State, exec .crcByteCmd s = .next t ∧ t.crcacc ≠ s.crcacc) ∧
    (∃ s t : State, step s = .next t ∧ t.crcacc ≠ s.crcacc ∧ s.nextInput = .reset) ∧
    (∃ s t : State, step s = .next t ∧ t.crcacc ≠ s.crcacc ∧ s.nextInput = .hostWrite 0x00 0x0002#16) :=
  ⟨⟨{ base with crcacc := 0#16 }, _, rfl, by decide +kernel⟩, ⟨base, _, rfl, by decide +kernel⟩,
    ⟨{ base with crcacc := 0#16, inputs := [.reset] }, _, rfl, by decide +kernel, rfl⟩,
    ⟨{ base with inputs := [.hostWrite 0x00 0x0002#16] }, _, rfl, by decide +kernel, rfl⟩⟩

theorem witness_ReservedCodeSetsCmderrOnly :
    (0x0008#16).getLsbD 3 = true ∧ (0xFFFF#16).getLsbD 3 = true := by decide

/-- Every cause of R107, at its boundary, and an accepted command. -/
theorem witness_CommandIsRefusedExactlyForItsCauses :
    RefusalCause 0x0008#16 base ∧ RefusalCause 0x0003#16 waiting ∧ RefusalCause 0x0007#16 waiting ∧
    RefusalCause 0x0005#16 base ∧ RefusalCause 0x0005#16 { readReady with argData := 0x0101#16 } ∧
    RefusalCause 0x0007#16 base ∧ RefusalCause 0x0007#16 errState ∧
    ¬ RefusalCause 0x0005#16 { readReady with argData := 0x0100#16 } ∧ ¬ RefusalCause 0x0007#16 okState ∧
    ¬ RefusalCause 0x0002#16 waiting := by
  refine ⟨?_, ?_, ?_, ?_, ?_, ?_, ?_, ?_, ?_, ?_⟩ <;> (simp only [RefusalCause]; decide +kernel)

/-- The eight codes that the command statements speak of, with ignored bits all 0 and all 1. -/
theorem witness_command_codes :
    ∀ k : BitVec 4, (0#12 ++ k).extractLsb' 0 4 = k ∧ (0xFFF#12 ++ k).extractLsb' 0 4 = k := by decide

theorem witness_CommandCodeIsTheLowFourBits :
    (0x0005#16).extractLsb' 0 4 = (0xFFF5#16).extractLsb' 0 4 := by decide

theorem witness_CommandsKeepOperandRegisters :
    ∃ t : State, exec (decodeCommand 0x0005#16) readReady = .next t := ⟨_, rfl⟩

theorem witness_FiveCommandsAreIdempotent :
    (Inv readReady ∧ ∃ t, exec .encRead readReady = .next t) ∧ (Inv okState ∧ ∃ t, exec .check okState = .next t) ∧
    (Inv almost ∧ ∃ t, exec .decodeCmd almost = .next t) ∧ (Inv base ∧ ∃ t, exec .crcInit base = .next t) ∧
    (Inv base ∧ ∃ t, exec .encWrite base = .next t) :=
  ⟨⟨inv_readReady, _, rfl⟩, ⟨inv_okState, _, rfl⟩, ⟨inv_almost, _, rfl⟩, ⟨inv_base, _, rfl⟩, ⟨inv_base, _, rfl⟩⟩

/-- A byte in mid frame, the completing byte, a timeout. -/
theorem witness_CrcCommandsCommuteWithReceiver :
    (∃ a b c : State, exec .crcByteCmd almost = .next a ∧ exec .rxByte a = .next b ∧ exec .rxByte almost = .next c) ∧
    (∃ a b c : State, exec .crcInit waiting = .next a ∧ exec .rxTimeout a = .next b ∧ exec .rxTimeout waiting = .next c) :=
  ⟨⟨_, _, _, rfl, rfl, rfl⟩, ⟨_, _, _, rfl, rfl, rfl⟩⟩

theorem witness_EncReadBuildsTheReadRequest :
    (Inv base ∧ base.rxstate = .idle) ∧ (Inv waiting ∧ waiting.rxstate = .receiving) :=
  ⟨⟨inv_base, rfl⟩, ⟨inv_waiting, rfl⟩⟩

theorem witness_EncWriteBuildsTheWriteRequest :
    (Inv writeReady ∧ writeReady.rxstate = .idle) ∧ (Inv almost ∧ almost.rxstate = .receiving) :=
  ⟨⟨inv_writeReady, rfl⟩, ⟨inv_almost, rfl⟩⟩

theorem witness_BuiltRequestsSatisfyTheFrameInvariant :
    Inv base ∧ base.rxstate = .idle ∧ (∃ t, exec .encRead base = .next t) ∧ (∃ t, exec .encWrite base = .next t) :=
  ⟨inv_base, rfl, ⟨_, rfl⟩, ⟨_, rfl⟩⟩

theorem witness_RequestFramesAreBuiltInTxbuf :
    (WellFormed (.readReq 0x01#8 0x1234#16 0x007D#16 0x5DC1#16) ∧
      encode (.readReq 0x01#8 0x1234#16 0x007D#16 0x5DC1#16) =
        some (.frame .toDevice [0x01#8, 0x03#8, 0x12#8, 0x34#8, 0x00#8, 0x7D#8, 0xC1#8, 0x5D#8])) ∧
    (WellFormed (.writeReq 0x01#8 0x0030#16 0x0064#16 0x2E88#16) ∧
      encode (.writeReq 0x01#8 0x0030#16 0x0064#16 0x2E88#16) = some (.frame .toDevice reqWrite)) ∧
    (Inv base ∧ base.rxstate = .idle) ∧ (Inv waiting ∧ waiting.rxstate = .receiving) :=
  ⟨by decide +kernel, by decide +kernel, ⟨inv_base, rfl⟩, ⟨inv_waiting, rfl⟩⟩

theorem witness_EnvironmentStepsTouchTheQueueOnly :
    { base with inputs := [.deviceSend 0x01#8] }.inputs = .deviceSend 0x01#8 :: [] ∧
    ({ base with inputs := [.linkFlush] }.inputs = .linkFlush :: [] ∧ base.rxstate = .idle) ∧
    ({ waiting with inputs := [.linkFlush] }.inputs = .linkFlush :: [] ∧ waiting.rxstate = .receiving) :=
  ⟨rfl, ⟨rfl, rfl⟩, ⟨rfl, rfl⟩⟩

/-- The completing byte; a byte sent by the device. -/
theorem witness_ArrivalOrderIsKept :
    (Inv almost ∧ almost.rxstate = .receiving ∧ almost.nextInput ≠ .reset ∧ ∃ t, step almost = .next t) ∧
    (∃ s t : State, Inv s ∧ s.rxstate = .receiving ∧ s.nextInput = .deviceSend 0x05#8 ∧ step s = .next t) :=
  ⟨⟨inv_almost, rfl, by decide, _, rfl⟩,
    ⟨{ waiting with inputs := [.deviceSend 0x05#8] }, _, inv_of_check (by decide +kernel), rfl, rfl, rfl⟩⟩

theorem witness_HalfDuplexAndRequestKept :
    waiting.rxstate = .receiving ∧ waiting.nextInput ≠ .reset ∧ ∃ t, step waiting = .next t :=
  ⟨rfl, by decide, _, rfl⟩

/-- Both alternatives of each part occur. -/
theorem witness_OnlyXferSendsAndIdlePullsNothing :
    (∃ s t : State, step s = .next t ∧ s.rxstate = .idle ∧ s.nextInput = .hostWrite 0x00 0x0005#16 ∧
      t.txstream ≠ s.txstream) ∧
    (∃ s t : State, step s = .next t ∧ s.rxstate = .idle ∧ s.nextInput = .linkFlush) ∧
    (∃ s t : State, step s = .next t ∧ s.rxstate = .idle ∧ s.nextInput.sent = repError) :=
  ⟨⟨{ readReady with inputs := [.hostWrite 0x00 0x0005#16] }, _, rfl, rfl, rfl, by decide +kernel⟩,
    ⟨{ base with inputs := [.linkFlush] }, _, rfl, rfl, rfl⟩,
    ⟨{ base with inputs := [.frame .toBlock repError] }, _, rfl, rfl, rfl⟩⟩

/-- Accepted at `ARG_DATA = 256` and at 0; refused at 257, without a request, and in flight. -/
theorem witness_XferSendsTheRequestAndArmsTheReceiver :
    (∃ s : State, s.rxstate = .idle ∧ s.txlen = 8 ∧ s.argData = 0x0100#16 ∧ s.argData.toNat ≤ 256) ∧
    (∃ s : State, s.rxstate = .idle ∧ s.txlen = 8 ∧ s.argData = 0x0000#16 ∧ s.argData.toNat ≤ 256) ∧
    (∃ s : State, ¬ (s.rxstate = .idle ∧ s.txlen = 8 ∧ s.argData.toNat ≤ 256) ∧ s.argData = 0x0101#16) ∧
    ¬ (base.rxstate = .idle ∧ base.txlen = 8 ∧ base.argData.toNat ≤ 256) ∧
    ¬ (waiting.rxstate = .idle ∧ waiting.txlen = 8 ∧ waiting.argData.toNat ≤ 256) :=
  ⟨⟨{ readReady with argData := 0x0100#16 }, by decide⟩, ⟨{ readReady with argData := 0x0000#16 }, by decide⟩,
    ⟨{ readReady with argData := 0x0101#16 }, by decide⟩, by decide, by decide⟩

/-- The completing byte, and the first of four (`RXEXP` at its least). -/
theorem witness_RxByteStoresOneByteAndClassifiesAtTheBoundary :
    (∃ s : State, ∃ b : Byte, ∃ q : List Byte, Inv s ∧ s.rxstate = .receiving ∧ s.rxfifo = b :: q ∧ s.rxlen + 1 = s.rxexp) ∧
    (∃ s : State, ∃ b : Byte, ∃ q : List Byte, Inv s ∧ s.rxstate = .receiving ∧ s.rxfifo = b :: q ∧ s.rxlen + 1 < s.rxexp) :=
  ⟨⟨almost, 0x33#8, [0x77#8], inv_almost, rfl, rfl, rfl⟩,
    ⟨{ waiting with rxexp := 4, rxfifo := [0x01#8] }, 0x01#8, [], inv_of_check (by decide +kernel), rfl, rfl, by decide⟩⟩

theorem witness_RxTimeoutRecordsTruncated :
    Inv waiting ∧ waiting.rxstate = .receiving ∧ waiting.rxfifo = [] := ⟨inv_waiting, rfl, rfl⟩

theorem witness_ReceiverStepsNeedTheirConditions :
    base.rxstate = .idle ∧ waiting.rxfifo = [] ∧ almost.rxfifo ≠ [] := ⟨rfl, rfl, by decide⟩

/-- All four transitions occur. -/
theorem witness_ReceiverTransitionsAreExactlyThese :
    (∃ s t : State, step s = .next t ∧ s.rxstate = .idle ∧ t.rxstate ≠ s.rxstate) ∧
    (∃ s t : State, step s = .next t ∧ s.nextInput = .receive ∧ s.rxstate = .receiving ∧ t.rxstate ≠ s.rxstate) ∧
    (∃ s t : State, step s = .next t ∧ s.nextInput = .linkTimeout ∧ s.rxstate = .receiving ∧ t.rxstate ≠ s.rxstate) ∧
    (∃ s t : State, step s = .next t ∧ s.nextInput = .reset ∧ s.rxstate = .receiving ∧ t.rxstate ≠ s.rxstate) :=
  ⟨⟨{ readReady with inputs := [.hostWrite 0x00 0x0005#16] }, _, rfl, rfl, by decide +kernel⟩,
    ⟨almost, _, rfl, rfl, rfl, by decide +kernel⟩,
    ⟨{ waiting with inputs := [.linkTimeout] }, _, rfl, rfl, rfl, by decide +kernel⟩,
    ⟨{ waiting with inputs := [.reset] }, _, rfl, rfl, rfl, by decide +kernel⟩⟩

/-- Both ends of a transaction. -/
theorem witness_TransactionEndsWithOneOutcome :
    (∃ s t : State, Inv s ∧ s.rxstate = .receiving ∧ t.rxstate = .idle ∧ s.nextInput = .receive ∧ step s = .next t) ∧
    (∃ s t : State, Inv s ∧ s.rxstate = .receiving ∧ t.rxstate = .idle ∧ s.nextInput = .linkTimeout ∧ step s = .next t) :=
  ⟨⟨almost, _, inv_almost, rfl, by decide +kernel, rfl, rfl⟩,
    ⟨{ waiting with inputs := [.linkTimeout] }, _, inv_of_check (by decide +kernel), rfl, by decide +kernel, rfl, rfl⟩⟩

theorem witness_ReceptionCollectsAndClassifiesTheFrame :
    ∃ s : State, ∃ f q : List Byte, ∃ rest : List Input, Inv s ∧ s.rxstate = .receiving ∧ s.rxfifo = f ++ q ∧
      s.rxlen + f.length = s.rxexp ∧ s.inputs = List.replicate f.length .receive ++ rest :=
  ⟨{ waiting with rxfifo := repRead ++ [0x77#8], inputs := List.replicate 7 .receive ++ [.reset] }, repRead, [0x77#8],
    [.reset], inv_of_check (by decide +kernel), rfl, rfl, rfl, rfl⟩

/-- The state before the transaction of `witness_MatchedReadTransactionPasses`, for a request of `n` registers. -/
def matchedRead (n : Nat) (req : List Byte) : State :=
  withTx req
    { base with
      argData := BitVec.ofNat 16 (2 * n + 1)
      rxfifo := sealed (readReplyHead 0x01#8 (List.replicate (2 * n) 0x00#8)) ++ []
      inputs := .hostWrite 0x00 0x0005#16 ::
        (List.replicate (2 * n + 5) .receive ++ .hostWrite 0x00 0x0007#16 :: []) }

/-- `n = 0` (V2.5), `n = 1` (V2.2) and `n = 127` (V2.14), the largest that the statement takes. -/
theorem witness_MatchedReadTransactionPasses :
    (let s := matchedRead 0 [0x00#8, 0x03#8, 0x00#8, 0x00#8, 0x00#8, 0x00#8, 0x44#8, 0x1B#8]
     Inv s ∧ s.rxstate = .idle ∧ s.txlen = 8 ∧ s.reqFunction = 0x03#8 ∧ s.reqData = BitVec.ofNat 16 0) ∧
    (let s := matchedRead 1 reqRead
     Inv s ∧ s.rxstate = .idle ∧ s.txlen = 8 ∧ s.reqFunction = 0x03#8 ∧ s.reqData = BitVec.ofNat 16 1) ∧
    (let s := matchedRead 127 [0x01#8, 0x03#8, 0x00#8, 0x00#8, 0x00#8, 0x7F#8, 0x04#8, 0x2A#8]
     Inv s ∧ s.rxstate = .idle ∧ s.txlen = 8 ∧ s.reqFunction = 0x03#8 ∧ s.reqData = BitVec.ofNat 16 127) ∧
    (∀ (n : Nat) (req : List Byte),
      (matchedRead n req).argData = BitVec.ofNat 16 (2 * n + 1) ∧
      (List.replicate (2 * n) (0x00#8 : Byte)).length = 2 * n ∧
      (matchedRead n req).rxfifo = sealed (readReplyHead 0x01#8 (List.replicate (2 * n) 0x00#8)) ++ [] ∧
      (matchedRead n req).inputs = .hostWrite 0x00 0x0005#16 ::
        (List.replicate (2 * n + 5) .receive ++ .hostWrite 0x00 0x0007#16 :: [])) :=
  ⟨⟨inv_of_check (by decide +kernel), rfl, rfl, by decide +kernel, by decide +kernel⟩,
    ⟨inv_of_check (by decide +kernel), rfl, rfl, by decide +kernel, by decide +kernel⟩,
    ⟨inv_of_check (by decide +kernel), rfl, rfl, by decide +kernel, by decide +kernel⟩,
    fun _ _ => ⟨rfl, List.length_replicate .., rfl, rfl⟩⟩

/-- The state before the transaction of `witness_WriteTransactionPassesExactlyOnTheRightEcho`: a write request is held, the
acknowledge `ack` waits. -/
def matchedWrite (ack : List Byte) : State :=
  { writeReady with
    rxfifo := ack
    inputs := .hostWrite 0x00 0x0005#16 :: (List.replicate 8 .receive ++ .hostWrite 0x00 0x0007#16 :: []) }

/-- What the statement asks of a state and of the acknowledge's register and value. -/
def WriteHypotheses (s : State) (dev : Byte) (reg val : Word) (q : List Byte) (rest : List Input) : Prop :=
  Inv s ∧ s.rxstate = .idle ∧ s.txlen = 8 ∧ s.reqFunction = 0x06#8 ∧ s.argData = 4#16 ∧
  s.rxfifo = sealed (fieldsHead dev 0x06#8 reg val) ++ q ∧
  s.inputs = .hostWrite 0x00 0x0005#16 :: (List.replicate 8 .receive ++ .hostWrite 0x00 0x0007#16 :: rest)

/-- The wrong echo of S7 and the right one of P2, the two branches of `CHK`. -/
theorem witness_WriteTransactionPassesExactlyOnTheRightEcho :
    (WriteHypotheses (matchedWrite repEcho99) 0x01#8 0x0030#16 0x0063#16 [] [] ∧
      ¬ (0x0030#16 = (matchedWrite repEcho99).reqAddr ∧ 0x0063#16 = (matchedWrite repEcho99).reqData)) ∧
    (WriteHypotheses (matchedWrite reqWrite) 0x01#8 0x0030#16 0x0064#16 [] [] ∧
      0x0030#16 = (matchedWrite reqWrite).reqAddr ∧ 0x0064#16 = (matchedWrite reqWrite).reqData) :=
  ⟨⟨⟨inv_of_check (by decide +kernel), rfl, rfl, by decide +kernel, rfl, by decide +kernel, rfl⟩, by decide +kernel⟩,
    ⟨inv_of_check (by decide +kernel), rfl, rfl, by decide +kernel, rfl, by decide +kernel, rfl⟩, by decide +kernel⟩

/-- P3, and the shortest expected length that is longer than an error reply by the transport's rule: `RXEXP = 7`. -/
theorem witness_ErrorReplyEndsTruncatedThenDecodes :
    ∃ s : State, ∃ dev code : Byte, ∃ func : BitVec 7, ∃ rest : List Input,
      Inv s ∧ s.rxstate = .receiving ∧ s.rxlen = 0 ∧ 7 ≤ s.rxexp ∧ s.rxexp = 7 ∧
      s.rxfifo = sealed (errorHead dev func code) ∧
      s.inputs = List.replicate 5 .receive ++ .linkTimeout :: .hostWrite 0x00 0x0006#16 :: rest :=
  ⟨{ waiting with
      rxfifo := repError
      inputs := List.replicate 5 .receive ++ .linkTimeout :: .hostWrite 0x00 0x0006#16 :: [] },
    0x01#8, 0x08#8, 0x03#7, [], inv_of_check (by decide +kernel), rfl, rfl, by decide, rfl, by decide +kernel, rfl⟩

/-- One frame for each branch of R91, at the boundary lengths: V3.27, V3.28, V3.25, V3.23, V3.22, V3.8, V3.18, V3.24,
V3.19, V3.3, V3.21, V3.20, V3.6, V3.24c. -/
theorem witness_DecodeDecidesInOrder :
    [0x01#8].length < 2 ∧ crcReceived [0x12#8, 0x34#8] ≠ crcComputed [0x12#8, 0x34#8] ∧
    crcReceived [0x01#8, 0x7E#8, 0x80#8] = crcComputed [0x01#8, 0x7E#8, 0x80#8] ∧
    classify [0x01#8, 0x83#8, 0x41#8, 0x81#8] = .truncated ∧
    classify [0x01#8, 0x83#8, 0x08#8, 0x00#8, 0xF7#8, 0xF0#8] = .unexpected ∧
    classify repError = .deviceError 0x08#8 ∧
    classify [0x01#8, 0x03#8, 0x04#8, 0x12#8, 0x34#8, 0x55#8, 0x32#8] = .truncated ∧
    classify [0x01#8, 0x03#8, 0x40#8, 0x21#8] = .truncated ∧
    classify [0x01#8, 0x03#8, 0x02#8, 0x12#8, 0x34#8, 0x56#8, 0x78#8, 0x09#8, 0x07#8] = .unexpected ∧
    classify [0x01#8, 0x03#8, 0x00#8, 0x20#8, 0xF0#8] = .ok 0x00#8 ∧
    classify [0x01#8, 0x06#8, 0x00#8, 0x30#8, 0x00#8, 0x0D#8, 0x48#8] = .truncated ∧
    classify [0x01#8, 0x06#8, 0x00#8, 0x30#8, 0x00#8, 0x64#8, 0x00#8, 0x2E#8, 0x66#8] = .unexpected ∧
    classify reqWrite = .writeAck 0x0030#16 0x0064#16 ∧
    classify [0x01#8, 0x04#8, 0x01#8, 0xE3#8] = .unexpected := by decide +kernel

theorem witness_OutcomesNeedTheirLengths :
    classify repRead = .ok 2#8 ∧ classify repEcho99 = .writeAck 0x0030#16 0x0063#16 ∧
    classify [0x01#8, 0x80#8, 0x7F#8, 0x00#8, 0x20#8] = .deviceError 0x7F#8 ∧
    classify [0x01#8, 0x02#8, 0x03#8] = .checksumMismatch ∧ [0x01#8, 0x7E#8, 0x80#8].length < 4 ∧
    classify [0x01#8, 0x00#8, 0x00#8, 0x20#8, 0x00#8] = .unexpected := by decide +kernel

theorem witness_WellFormedRepliesAreRecognised :
    (WellFormed (.errorReply 0x01#8 0x03#7 0x08#8 0xF640#16) ∧
      encode (.errorReply 0x01#8 0x03#7 0x08#8 0xF640#16) = some (.frame .toBlock repError)) ∧
    (WellFormed (.readReply 0x01#8 [0x12#8, 0x34#8] 0x33B5#16) ∧
      encode (.readReply 0x01#8 [0x12#8, 0x34#8] 0x33B5#16) = some (.frame .toBlock repRead)) ∧
    (WellFormed (.writeReply 0x01#8 0x0030#16 0x0063#16 0xECC9#16) ∧
      encode (.writeReply 0x01#8 0x0030#16 0x0063#16 0xECC9#16) = some (.frame .toBlock repEcho99)) ∧
    (WellFormed (.unknownReply 0x01#8 0x04#8 [] 0xE301#16) ∧
      encode (.unknownReply 0x01#8 0x04#8 [] 0xE301#16) =
        some (.frame .toBlock [0x01#8, 0x04#8, 0x01#8, 0xE3#8])) := by decide +kernel

theorem witness_DecodeCommandClassifiesTheBytesHeld : base.rxstate = .idle ∧ almost.rxstate = .receiving := ⟨rfl, rfl⟩

/-- PASS and VIOLATION of both kinds, a count above 127 (V2.14), and each cause of a refusal. -/
theorem witness_CheckComparesReplyWithRequest :
    (okState.rxstate = .idle ∧ okState.txlen = 8 ∧ okState.res.result = .ok ∧ okState.txbuf.read 1 = 0x03#8 ∧
      okState.res.paylen.toNat = 2 * (u16be (okState.txbuf.read 4) (okState.txbuf.read 5)).toNat) ∧
    (∃ s : State, s.rxstate = .idle ∧ s.txlen = 8 ∧ s.res.result = .ok ∧
      127 < (u16be (s.txbuf.read 4) (s.txbuf.read 5)).toNat ∧
      s.res.paylen.toNat ≠ 2 * (u16be (s.txbuf.read 4) (s.txbuf.read 5)).toNat) ∧
    (ackState.rxstate = .idle ∧ ackState.txlen = 8 ∧ ackState.res.result = .writeAck ∧
      ackState.res.ackval ≠ u16be (ackState.txbuf.read 4) (ackState.txbuf.read 5)) ∧
    (∃ s : State, s.rxstate = .idle ∧ s.txlen = 8 ∧ s.res.result = .writeAck ∧ s.txbuf.read 1 = 0x06#8 ∧
      s.res.ackaddr = u16be (s.txbuf.read 2) (s.txbuf.read 3) ∧ s.res.ackval = u16be (s.txbuf.read 4) (s.txbuf.read 5)) ∧
    waiting.rxstate = .receiving ∧ base.txlen ≠ 8 ∧ (errState.res.result ≠ .ok ∧ errState.res.result ≠ .writeAck) :=
  ⟨by decide +kernel,
    ⟨withTx [0x01#8, 0x03#8, 0x00#8, 0x00#8, 0x00#8, 0x80#8, 0x44#8, 0x6A#8] okState, by decide +kernel⟩,
    by decide +kernel, ⟨{ ackState with res := { ackState.res with ackval := 0x0064#16 } }, by decide +kernel⟩,
    by decide +kernel⟩

/-- Every alternative occurs. -/
theorem witness_ResultsStayUntilReplaced :
    (∃ s t : State, s.rxstate = .idle ∧ step s = .next t ∧ s.nextInput = .hostWrite 0x00 0x0005#16 ∧
      { t.res with chk := s.res.chk } ≠ s.res ∧ t.rxlen ≠ s.rxlen) ∧
    (∃ s t : State, s.rxstate = .idle ∧ step s = .next t ∧ s.nextInput = .hostWrite 0x00 0x0006#16 ∧
      { t.res with chk := s.res.chk } ≠ s.res) ∧
    (∃ s t : State, s.rxstate = .idle ∧ step s = .next t ∧ s.nextInput = .hostWrite 0x00 0x0007#16 ∧
      t.res.chk ≠ s.res.chk) ∧
    (∃ s t : State, s.rxstate = .idle ∧ step s = .next t ∧ s.nextInput = .reset ∧ t.rxexp ≠ s.rxexp) :=
  ⟨⟨{ okState with inputs := [.hostWrite 0x00 0x0005#16] }, _, rfl, rfl, rfl, by decide +kernel⟩,
    ⟨{ base with inputs := [.hostWrite 0x00 0x0006#16] }, _, rfl, rfl, rfl, by decide +kernel⟩,
    ⟨{ okState with inputs := [.hostWrite 0x00 0x0007#16] }, _, rfl, rfl, rfl, by decide +kernel⟩,
    ⟨{ okState with inputs := [.reset] }, _, rfl, rfl, rfl, by decide +kernel⟩⟩

theorem witness_CmderrChangesOnlyByCommands :
    (∃ s t : State, step s = .next t ∧ t.cmderr ≠ s.cmderr ∧ s.nextInput = .hostWrite 0x00 0x0008#16) ∧
    (∃ s t : State, step s = .next t ∧ t.cmderr ≠ s.cmderr ∧ s.nextInput = .reset) ∧
    (∃ s t : State, step s = .next t ∧ t.cmderr ≠ s.cmderr ∧ s.nextInput = .frame .toDevice reqWrite) :=
  ⟨⟨{ base with inputs := [.hostWrite 0x00 0x0008#16] }, _, rfl, by decide +kernel, rfl⟩,
    ⟨{ base with cmderr := true, inputs := [.reset] }, _, rfl, by decide +kernel, rfl⟩,
    ⟨{ waiting with inputs := [.frame .toDevice reqWrite] }, _, rfl, by decide +kernel, rfl⟩⟩

theorem witness_StatusShowsItsFields :
    (Inv waiting ∧ (waiting.readRegister 0x04).getLsbD 0 = true) ∧
    (Inv errState ∧ (errState.readRegister 0x04).getLsbD 3 = true) ∧
    (∃ s : State, Inv s ∧ (s.readRegister 0x04).extractLsb' 8 2 ≠ 0#2) :=
  ⟨⟨inv_waiting, by decide +kernel⟩, ⟨inv_errState, by decide +kernel⟩,
    ⟨{ ackState with res := { ackState.res with chk := .violation } }, inv_of_check (by decide +kernel),
      by decide +kernel⟩⟩

theorem witness_DiagnosticsFitTheOutcome :
    (Inv okState ∧ okState.res.result = .ok) ∧ (Inv ackState ∧ ackState.res.result = .writeAck) ∧
    (Inv errState ∧ errState.res.result = .deviceError) ∧ (Inv base ∧ base.res.result = .none) ∧
    (∃ s : State, Inv s ∧ s.res.result = .checksumMismatch) :=
  ⟨⟨inv_okState, rfl⟩, ⟨inv_ackState, rfl⟩, ⟨inv_errState, rfl⟩, ⟨inv_base, rfl⟩,
    ⟨withRx [0x12#8, 0x34#8] 4
      { base with
        res := { Results.cleared with result := .checksumMismatch, crcrx := 0x3412#16, crccalc := 0xFFFF#16 } },
      inv_of_check (by decide +kernel), rfl⟩⟩

theorem witness_HostReadGivesTheRegister : 0x10 < 0x11 ∧ Inv almost := ⟨by decide, inv_almost⟩

/-- The last valid byte, and the first beyond. -/
theorem witness_WindowsShowOnlyValidBytes :
    (∃ s : State, s.bufidx.toNat + 1 = s.txlen ∧ s.bufidx.toNat < s.txlen) ∧
    (∃ s : State, s.bufidx.toNat = s.txlen ∧ s.txlen ≤ s.bufidx.toNat) ∧
    (∃ s : State, s.bufidx.toNat + 1 = s.rxlen ∧ s.bufidx.toNat < s.rxlen) ∧
    (∃ s : State, s.bufidx.toNat = s.rxlen ∧ s.rxlen ≤ s.bufidx.toNat) :=
  ⟨⟨{ readReady with bufidx := 7#9 }, by decide⟩, ⟨{ readReady with bufidx := 8#9 }, by decide⟩,
    ⟨{ okState with bufidx := 6#9 }, by decide⟩, ⟨{ okState with bufidx := 7#9 }, by decide⟩⟩

theorem witness_HostAccessesChangeOnlyTheirRegister :
    { base with inputs := [.hostRead 0x11] }.inputs = .hostRead 0x11 :: [] ∧
    { base with inputs := [.hostWrite 0x06 0xFFFF#16] }.inputs = .hostWrite 0x06 0xFFFF#16 :: [] ∧
    { base with inputs := [.hostWrite 0x07 0xFFFF#16] }.inputs = .hostWrite 0x07 0xFFFF#16 :: [] ∧
    { base with inputs := [.hostWrite 0x11 0xFFFF#16] }.inputs = .hostWrite 0x11 0xFFFF#16 :: [] := ⟨rfl, rfl, rfl, rfl⟩

/-- Two different states: a byte of `RXBUF` at index `RXLEN`. -/
theorem witness_BytesBeyondTheLengthsAreUnobservable :
    ∃ s t s' t' : State, s ≠ t ∧ Inv s ∧ Inv t ∧ SameVisible s t ∧ step s = .next s' ∧ step t = .next t' :=
  ⟨okState, { okState with rxbuf := okState.rxbuf.write 7 0x55#8 }, _, _, by decide +kernel, inv_okState,
    inv_of_check (by decide +kernel), ⟨by decide +kernel, by decide +kernel, by decide +kernel⟩, rfl, rfl⟩

theorem witness_ResetEventKeepsTheLink :
    { almost with inputs := [.reset] }.inputs = .reset :: [] := rfl

theorem witness_AfterResetTheseCommandsAreAccepted :
    ((0x0000#16).extractLsb' 0 4).toNat ≤ 4 ∧ ((0xFFF4#16).extractLsb' 0 4).toNat ≤ 4 ∧
    (0x0006#16).extractLsb' 0 4 = 6#4 := by decide

theorem wellFormed_sealed_readReply (dev : Byte) (payload : List Byte) (h : payload.length ≤ 255) :
    WellFormed (.readReply dev payload (crc16 (readReplyHead dev payload))) := by
  simp [WellFormed, wellFormed, h]

/-- Each kind of encoding, the longest read reply included. -/
theorem witness_DecodeInvertsEncode :
    (WellFormed (.cmdReserved 7#3) ∧ encode (.cmdReserved 7#3) = some (.command 0x000F#16)) ∧
    (WellFormed (.readReq 0xFF#8 0xFFFF#16 0xFFFF#16 (crc16 (fieldsHead 0xFF#8 0x03#8 0xFFFF#16 0xFFFF#16))) ∧
      ∃ c, encode (.readReq 0xFF#8 0xFFFF#16 0xFFFF#16 (crc16 (fieldsHead 0xFF#8 0x03#8 0xFFFF#16 0xFFFF#16))) = some c) ∧
    (∃ i : Instr, ∃ c : Code, (∃ crc, i = .readReply 0x01#8 (List.replicate 255 0x00#8) crc) ∧ WellFormed i ∧
      encode i = some c) := by
  refine ⟨⟨rfl, rfl⟩, ⟨by decide +kernel, _, rfl⟩, _, _, ⟨crc16 (readReplyHead 0x01#8 (List.replicate 255 0x00#8)), rfl⟩, ?_, rfl⟩
  exact wellFormed_sealed_readReply 0x01#8 _ (by decide +kernel)

theorem witness_EncodeInvertsDecode :
    decodeCode (.frame .toBlock repError) = .ok (.errorReply 0x01#8 0x03#7 0x08#8 0xF640#16) ∧
    decodeCode (.frame .toDevice reqWrite) = .ok (.writeReq 0x01#8 0x0030#16 0x0064#16 0x2E88#16) := ⟨rfl, rfl⟩

theorem witness_StepRunsTheLaunchedOperation :
    decodeCode (.frame .toBlock repRead) = .ok (.readReply 0x01#8 [0x12#8, 0x34#8] 0x33B5#16) ∧
    decodeTableWord 16 0x0005 = some .xfer ∧ base.inputs = [] ∧
    { base with inputs := [.linkTimeout] }.inputs = .linkTimeout :: [] := ⟨rfl, by decide, rfl, rfl⟩

/-- A step from a state that meets the invariant, in flight and at rest. -/
theorem witness_StepKeepsTheInvariant :
    (Inv almost ∧ ∃ t, step almost = .next t) ∧ (Inv base ∧ ∃ t, step base = .next t) :=
  ⟨⟨inv_almost, _, rfl⟩, ⟨inv_base, _, rfl⟩⟩

theorem witness_NoRunFaults : Inv almost := inv_almost

end Sys2Proof.Tests
end

namespace Sys2Proof.Machine

/-! ### The host registers (R12, R20, R21, R33) -/

section

variable (s : State)

/-- A byte in a 16-bit register has zeros on top (R12). -/
theorem setWidth_byte (b : Byte) : b.setWidth 16 = 0#8 ++ b := BitVec.setWidth_eq_append (by decide)

theorem setWidth_bufidx (i : BitVec 9) : i.setWidth 16 = 0#7 ++ i := BitVec.setWidth_eq_append (by decide)

/-- A length of up to 260 fits the nine bits of its register. -/
theorem toNat_length_register {n : Nat} (h : n ≤ Config.rxCap) : ((BitVec.ofNat 9 n).setWidth 16).toNat = n := by
  have hn : n ≤ 260 := h
  rw [BitVec.toNat_setWidth, BitVec.toNat_ofNat]
  omega

/-- `RXEXP` fits its buffer, and `RXLEN` is no larger (R23, R35). -/
theorem Inv.rxexp_le {s : State} (h : Inv s) : s.rxexp ≤ Config.rxCap := by
  obtain h0 | ⟨_, hcap⟩ := h.rxExpected
  · rw [h0]
    exact Nat.zero_le _
  · exact hcap

theorem Inv.rxlen_le {s : State} (h : Inv s) : s.rxlen ≤ Config.rxCap := h.rxLength.trans h.rxexp_le

theorem readRegister_beyond {r : Nat} (hr : 0x10 < r) : s.readRegister r = 0#16 := by
  obtain ⟨k, rfl⟩ := Nat.exists_eq_add_of_le' (show 17 ≤ r from hr)
  rfl

theorem readRegister_txWindow : s.readRegister 0x07 = 0#8 ++ s.txWindow := setWidth_byte s.txWindow

theorem readRegister_rxWindow : s.readRegister 0x08 = 0#8 ++ s.rxWindow := setWidth_byte s.rxWindow

end

/-- Settles O47: each register is read in its own line of the table, and a length that meets the invariant fits nine
bits. -/
theorem hostReadGivesTheRegister : Obligations.HostReadGivesTheRegister := fun s =>
  ⟨rfl, setWidth_byte s.argDev, rfl, rfl, rfl, setWidth_bufidx s.bufidx, rfl, rfl, setWidth_byte s.res.errcode,
    setWidth_byte s.res.paylen, rfl, rfl, fun _ => readRegister_beyond s,
    fun h => ⟨toNat_length_register h.rxlen_le, toNat_length_register h.rxexp_le⟩⟩

/-- Settles O48: the two sides of each window's own bound. -/
theorem windowsShowOnlyValidBytes : Obligations.WindowsShowOnlyValidBytes := by
  intro s
  rw [readRegister_txWindow, readRegister_rxWindow]
  refine ⟨fun h => ?_, fun h => ?_, fun h => ?_, fun h => ?_⟩
  · rw [State.txWindow, if_pos h]
  · rw [State.txWindow, if_neg (by omega)]
    rfl
  · rw [State.rxWindow, if_pos h]
  · rw [State.rxWindow, if_neg (by omega)]
    rfl

/-- Settles O51: the 17 numbered registers one by one, then the numbers above them. -/
theorem resetValuesReadAsTheTableSays : Obligations.ResetValuesReadAsTheTableSays := by
  refine ⟨fun r => ?_, rfl, rfl, rfl, rfl, fun s => ⟨rfl, rfl⟩⟩
  by_cases hr : 0x10 < r
  · rw [readRegister_beyond _ hr, if_neg (by omega)]
  · have hr : r ≤ 0x10 := by omega
    interval_cases r <;> rfl

/-! ### The results under the invariant (R17, R25 to R29) -/

/-- All that the checks by function byte can answer, with the length that each answer with fields asks for (R91 steps 4
to 7). -/
theorem classifyFrame_cases (f : List Byte) :
    classifyFrame f = .truncated ∨ classifyFrame f = .unexpected ∨
      (classifyFrame f = .deviceError (byteAt f 2) ∧ f.length = 5) ∨
      (classifyFrame f = .ok (byteAt f 2) ∧ (byteAt f 2).toNat + 5 = f.length) ∨
      (classifyFrame f = .writeAck (u16be (byteAt f 2) (byteAt f 3)) (u16be (byteAt f 4) (byteAt f 5)) ∧
        f.length = 8) := by
  unfold classifyFrame
  split
  · split
    · exact .inl rfl
    · split
      · exact .inr (.inl rfl)
      · exact .inr (.inr (.inl ⟨rfl, by omega⟩))
  · split
    · split
      · exact .inl rfl
      · split
        · exact .inl rfl
        · split
          · exact .inr (.inl rfl)
          · exact .inr (.inr (.inr (.inl ⟨rfl, by omega⟩)))
    · split
      · split
        · exact .inl rfl
        · split
          · exact .inr (.inl rfl)
          · exact .inr (.inr (.inr (.inr ⟨rfl, by omega⟩)))
      · exact .inr (.inl rfl)

/-- All that `classify` can answer: a mismatch of the two checksums, a frame too short, or the answer of `classifyFrame`
(R91). -/
theorem classify_cases (f : List Byte) :
    (classify f = .checksumMismatch ∧ 2 ≤ f.length ∧ crcReceived f ≠ crcComputed f) ∨
    ((f.length < 2 ∨ crcReceived f = crcComputed f) ∧ (classify f = .truncated ∨ classify f = classifyFrame f)) := by
  unfold classify
  split
  · next hshort => exact .inr ⟨.inl hshort, .inl rfl⟩
  · next hlong =>
    split
    · next hcrc => exact .inl ⟨rfl, by omega, hcrc⟩
    · next hcrc =>
      refine .inr ⟨.inr (not_not.mp hcrc), ?_⟩
      split
      · exact .inl rfl
      · exact .inr rfl

/-- What the nine result registers, `CHK` apart, say of the bytes they were made from. -/
structure Results.Fit (r : Results) (f : List Byte) : Prop where
  mismatch : r.result = .checksumMismatch ↔ r.crcrx ≠ r.crccalc
  ok : r.result = .ok → r.paylen.toNat + 5 = f.length ∧ r.paylen = byteAt f 2
  notOk : r.result ≠ .ok → r.paylen = 0#8
  ack : r.result = .writeAck →
    f.length = 8 ∧ r.ackaddr = u16be (byteAt f 2) (byteAt f 3) ∧ r.ackval = u16be (byteAt f 4) (byteAt f 5)
  notAck : r.result ≠ .writeAck → r.ackaddr = 0#16 ∧ r.ackval = 0#16
  error : r.result = .deviceError → f.length = 5 ∧ r.errcode = byteAt f 2
  notError : r.result ≠ .deviceError → r.errcode = 0#8
  reqcrc : r.reqcrc = true ↔ r.result = .deviceError ∧ r.errcode = 0x08#8

theorem Results.fit_cleared (f : List Byte) : Results.cleared.Fit f := by
  constructor <;> simp [Results.cleared]

theorem Results.fit_truncated (f : List Byte) (w : Word) :
    (Reply.truncated.record { Results.cleared with crcrx := w, crccalc := w }).Fit f := by
  constructor <;> simp [Results.cleared, Reply.record]

/-- The checksum registers agree where no mismatch is found, and all else is still 0. -/
theorem checksumResults_of_agree {f : List Byte} (h : f.length < 2 ∨ crcReceived f = crcComputed f) :
    ∃ w, checksumResults f = { Results.cleared with crcrx := w, crccalc := w } := by
  unfold checksumResults
  split
  · exact ⟨0#16, rfl⟩
  · next hlong =>
    obtain hshort | hcrc := h
    · exact absurd hshort hlong
    · exact ⟨crcComputed f, by rw [hcrc]⟩

/-- The answers of `classifyFrame` are recorded over equal checksums. -/
theorem Results.fit_classifyFrame (f : List Byte) (w : Word) :
    ((classifyFrame f).record { Results.cleared with crcrx := w, crccalc := w }).Fit f := by
  obtain hc | hc | ⟨hc, hl⟩ | ⟨hc, hl⟩ | ⟨hc, hl⟩ := classifyFrame_cases f <;> rw [hc]
  · constructor <;> simp [Results.cleared, Reply.record]
  · constructor <;> simp [Results.cleared, Reply.record]
  · constructor <;> simp [Results.cleared, Reply.record, hl, Config.errReqcrc]
  · constructor <;> simp [Results.cleared, Reply.record, hl]
  · constructor <;> simp [Results.cleared, Reply.record, hl]

theorem Results.fit_decodeResults (f : List Byte) : (decodeResults f).Fit f := by
  unfold decodeResults
  obtain ⟨hc, hl, hne⟩ | ⟨hagree, hc⟩ := classify_cases f
  · rw [hc, checksumResults, if_neg (by omega)]
    constructor <;> simp [Results.cleared, Reply.record, hne]
  · obtain ⟨w, hw⟩ := checksumResults_of_agree hagree
    obtain hc | hc := hc <;> rw [hc, hw]
    · exact Results.fit_truncated f w
    · exact Results.fit_classifyFrame f w

/-- `CHK` is none of the registers that `decode` fills. -/
theorem Results.fit_of_chk {r : Results} {f : List Byte} {c : CheckCode} (h : { r with chk := c }.Fit f) : r.Fit f :=
  ⟨h.mismatch, h.ok, h.notOk, h.ack, h.notAck, h.error, h.notError, h.reqcrc⟩

theorem Inv.fit {s : State} (h : Inv s) : s.res.Fit s.rxBytes := by
  cases hr : s.rxstate with
  | receiving =>
    obtain ⟨_, _, hres⟩ := h.receiving hr
    rw [hres]
    exact Results.fit_cleared s.rxBytes
  | idle =>
    apply Results.fit_of_chk (c := .none)
    obtain hres | hres | hres := h.outcome hr <;> rw [hres]
    · exact Results.fit_cleared s.rxBytes
    · exact Results.fit_truncated s.rxBytes 0#16
    · exact Results.fit_decodeResults s.rxBytes

@[simp] theorem length_rxBytes (s : State) : s.rxBytes.length = s.rxlen := Memory.length_readBytes

/-- A byte of the reply held, by its place in `RXBUF`. -/
theorem byteAt_rxBytes {s : State} {i : Nat} (hi : i < s.rxlen) : byteAt s.rxBytes i = s.rxbuf.read i := by
  have hlen : i < s.rxBytes.length := by rwa [length_rxBytes]
  rw [byteAt, List.getD_eq_getElem _ _ hlen]
  simp only [State.rxBytes, Memory.getElem_readBytes, Nat.zero_add]

/-- Settles O46: the registers fit the bytes held, and the bytes they speak of lie below `RXLEN`. -/
theorem diagnosticsFitTheOutcome : Obligations.DiagnosticsFitTheOutcome := by
  intro s h
  have hfit := h.fit
  refine ⟨hfit.mismatch, fun hok => ?_, hfit.notOk, fun hack => ?_, hfit.notAck, fun herr => ?_, hfit.notError⟩
  · obtain ⟨hl, hp⟩ := hfit.ok hok
    rw [length_rxBytes] at hl
    exact ⟨hl, by rw [hp, byteAt_rxBytes (by omega)]⟩
  · obtain ⟨hl, ha, hv⟩ := hfit.ack hack
    rw [length_rxBytes] at hl
    rw [ha, hv, byteAt_rxBytes (by omega), byteAt_rxBytes (by omega), byteAt_rxBytes (by omega),
      byteAt_rxBytes (by omega)]
    exact ⟨rfl, rfl⟩
  · obtain ⟨hl, he⟩ := hfit.error herr
    rw [length_rxBytes] at hl
    rw [he, byteAt_rxBytes (by omega)]

/-! ### The word `STATUS` (R17) -/

section

variable (s : State)

/-- `STATUS` with its width written as the sum of its fields' widths, which the library's lemmas on `++` ask for. -/
def State.statusFields (s : State) : BitVec (6 + 2 + 4 + 1 + 1 + 1 + 1) :=
  0#6 ++ s.res.chk.code ++ s.res.result.code ++ flagBit s.res.reqcrc ++ flagBit s.cmderr ++ flagBit s.txvalid ++
    flagBit s.busy

theorem status_getLsbD (i : Nat) : s.status.getLsbD i = s.statusFields.getLsbD i := rfl

theorem status_extractLsb' (i n : Nat) : s.status.extractLsb' i n = s.statusFields.extractLsb' i n := rfl

theorem status_flags :
    s.status.getLsbD 0 = s.busy ∧ s.status.getLsbD 1 = s.txvalid ∧ s.status.getLsbD 2 = s.cmderr ∧
      s.status.getLsbD 3 = s.res.reqcrc := by
  simp only [status_getLsbD, State.statusFields, BitVec.getLsbD_append]
  simp [flagBit]

theorem status_result : s.status.extractLsb' 4 4 = s.res.result.code := by
  rw [status_extractLsb', State.statusFields]
  iterate 4 rw [BitVec.extractLsb'_append_eq_of_le (by decide)]
  rw [BitVec.extractLsb'_append_eq_of_add_le (by decide)]
  exact BitVec.extractLsb'_eq_self

theorem status_chk : s.status.extractLsb' 8 2 = s.res.chk.code := by
  rw [status_extractLsb', State.statusFields]
  iterate 5 rw [BitVec.extractLsb'_append_eq_of_le (by decide)]
  rw [BitVec.extractLsb'_append_eq_of_add_le (by decide)]
  exact BitVec.extractLsb'_eq_self

theorem status_top : s.status.extractLsb' 10 6 = 0#6 := by
  rw [status_extractLsb', State.statusFields]
  iterate 6 rw [BitVec.extractLsb'_append_eq_of_le (by decide)]
  exact BitVec.extractLsb'_eq_self

end

/-- Settles O45: `STATUS` is the seven fields side by side, and the invariant ties them together. -/
theorem statusShowsItsFields : Obligations.StatusShowsItsFields := by
  intro s h w
  have hw : w = s.status := rfl
  obtain ⟨hbusy, htxvalid, hcmderr, hreqcrc⟩ := status_flags s
  rw [hw, hbusy, htxvalid, hcmderr, hreqcrc, status_result, status_chk]
  refine ⟨busy_iff, txvalid_iff, rfl, h.fit.reqcrc, ?_, ?_, status_top s, fun hbusy => ?_, fun hchk => ?_,
    fun hreq => ?_⟩
  · cases s.res.result <;> rfl
  · cases s.res.chk <;> rfl
  · obtain ⟨_, _, hres⟩ := h.receiving (busy_iff.mp hbusy)
    rw [hres]
    exact ⟨rfl, rfl⟩
  · have hne : s.res.chk ≠ .none := fun hnone => hchk (by rw [hnone]; rfl)
    obtain hok | hack := normalReply_iff.mp (h.checked hne)
    · exact .inl (by rw [hok]; rfl)
    · exact .inr (by rw [hack]; rfl)
  · obtain ⟨herr, _⟩ := h.fit.reqcrc.mp hreq
    rw [herr]
    rfl

end Sys2Proof.Machine

namespace Sys2Proof.Machine

/-! ### What operations and steps leave alone (R8, R11, R18, R19) -/

section

variable {s t : State} {v : Word} {i : Instr} {e : Input}

/-- `CRCACC` and the four registers that the host writes: what no operation writes but the two CRC commands and the framing
of a request given as a frame. -/
def State.hostSide (s : State) : Word × Byte × Word × Word × BitVec 9 :=
  (s.crcacc, s.argDev, s.argAddr, s.argData, s.bufidx)

/-- A command keeps what its effect keeps: acceptance and refusal write `CMDERR` alone. -/
theorem answer_keeps_hostSide {p : Bool} {u : State}
    (hanswer : exec i s = .next (if p then u.accept else s.refuse)) (hu : u.hostSide = s.hostSide)
    (h : exec i s = .next t) : t.hostSide = s.hostSide := by
  rw [hanswer] at h
  cases h
  cases p with
  | true => exact hu
  | false => rfl

theorem execRxByte_keeps_hostSide (h : execRxByte s = .next t) : t.hostSide = s.hostSide := by
  obtain ⟨_, hx⟩ | ⟨_, _, hx⟩ | ⟨_, _, _, _, _, _, hx⟩ | ⟨_, _, _, _, _, _, hx⟩ | ⟨_, _, _, hx⟩ := execRxByte_cases s <;>
    rw [hx] at h
  case inr.inr.inr.inr => cases h
  all_goals
    cases h
    rfl

theorem execRxTimeout_keeps_hostSide (h : execRxTimeout s = .next t) : t.hostSide = s.hostSide := by
  obtain ⟨_, _, hx⟩ | ⟨_, hx⟩ := execRxTimeout_cases s <;>
  · rw [hx] at h
    cases h
    rfl

/-- Every operation but the two CRC commands and the two request frames. -/
theorem exec_keeps_hostSide (hinit : i ≠ .crcInit) (hbyte : i ≠ .crcByteCmd)
    (hread : ∀ dev start count crc, i ≠ .readReq dev start count crc)
    (hwrite : ∀ dev reg val crc, i ≠ .writeReq dev reg val crc) (h : exec i s = .next t) :
    t.hostSide = s.hostSide := by
  cases i with
  | crcInit => contradiction
  | crcByteCmd => contradiction
  | readReq dev start count crc => exact absurd rfl (hread dev start count crc)
  | writeReq dev reg val crc => exact absurd rfl (hwrite dev reg val crc)
  | encRead => exact answer_keeps_hostSide (exec_encRead s) rfl h
  | encWrite => exact answer_keeps_hostSide (exec_encWrite s) rfl h
  | xfer => exact answer_keeps_hostSide (exec_xfer s) rfl h
  | decodeCmd => exact answer_keeps_hostSide (exec_decodeCmd s) rfl h
  | check => exact answer_keeps_hostSide (exec_check s) rfl h
  | rxByte => exact execRxByte_keeps_hostSide h
  | rxTimeout => exact execRxTimeout_keeps_hostSide h
  | nop | cmdReserved | errorReply | readReply | writeReply | unknownReply | crcRound | crcByte | crc16 | decode =>
    cases h
    rfl

/-! #### The accumulator -/

theorem exec_readReq_crcacc {dev : Byte} {start count crc : Word}
    (h : exec (.readReq dev start count crc) s = .next t) : t.crcacc = s.crcacc := by
  rw [exec_readReq] at h
  cases h
  split <;> rfl

theorem exec_writeReq_crcacc {dev : Byte} {reg val crc : Word} (h : exec (.writeReq dev reg val crc) s = .next t) :
    t.crcacc = s.crcacc := by
  rw [exec_writeReq] at h
  cases h
  split <;> rfl

theorem exec_keeps_crcacc (hinit : i ≠ .crcInit) (hbyte : i ≠ .crcByteCmd) (h : exec i s = .next t) :
    t.crcacc = s.crcacc := by
  cases i with
  | readReq => exact exec_readReq_crcacc h
  | writeReq => exact exec_writeReq_crcacc h
  | _ => exact congrArg Prod.fst (exec_keeps_hostSide hinit hbyte (by simp) (by simp) h)

theorem crcCommand_of_crcacc_ne (h : exec i s = .next t) (hne : t.crcacc ≠ s.crcacc) :
    i = .crcInit ∨ i = .crcByteCmd := by
  by_contra hi
  obtain ⟨hinit, hbyte⟩ := not_or.mp hi
  exact hne (exec_keeps_crcacc hinit hbyte h)

theorem code_of_decodeCommand_eq_crcInit (h : decodeCommand v = .crcInit) : v.extractLsb' 0 4 = 1#4 := by
  unfold decodeCommand at h
  split at h
  case h_2 hcode => exact BitVec.eq_of_toNat_eq hcode
  all_goals cases h

theorem code_of_decodeCommand_eq_crcByteCmd (h : decodeCommand v = .crcByteCmd) : v.extractLsb' 0 4 = 2#4 := by
  unfold decodeCommand at h
  split at h
  case h_3 hcode => exact BitVec.eq_of_toNat_eq hcode
  all_goals cases h

/-- Only a write to `CMD` launches one of the two CRC commands. -/
theorem input_of_crcCommand (ho : e.operation = some i) (hi : i = .crcInit ∨ i = .crcByteCmd) :
    ∃ v : Word, e = .hostWrite 0x00 v ∧ (v.extractLsb' 0 4 = 1#4 ∨ v.extractLsb' 0 4 = 2#4) := by
  obtain ⟨v, he, rfl⟩ | ⟨_, rfl⟩ | ⟨_, rfl⟩ | ⟨f, _, hf⟩ | ⟨f, _, hf⟩ := operation_cases ho
  · exact ⟨v, he, hi.imp code_of_decodeCommand_eq_crcInit code_of_decodeCommand_eq_crcByteCmd⟩
  · simp at hi
  · simp at hi
  · obtain ⟨_, _, _, _, rfl⟩ | ⟨_, _, _, _, rfl⟩ := decodeRequest_cases hf <;> simp at hi
  · obtain ⟨_, hcode, _⟩ := exec_reply hf State.reset
    obtain rfl | rfl := hi <;> cases hcode

@[simp] theorem writeRegister_crcacc (s : State) (r : Nat) (v : Word) : (s.writeRegister r v).crcacc = s.crcacc := by
  unfold State.writeRegister
  split <;> rfl

@[simp] theorem linkFlush_crcacc (s : State) : s.linkFlush.crcacc = s.crcacc := by
  unfold State.linkFlush
  split <;> rfl

theorem plainEffect_crcacc (he : e ≠ .reset) (s : State) : (e.plainEffect s).crcacc = s.crcacc := by
  cases e with
  | reset => contradiction
  | hostWrite r v => exact writeRegister_crcacc s r v
  | linkFlush => exact linkFlush_crcacc s
  | hostRead | deviceSend | receive | linkTimeout => rfl
  | frame dir f => cases dir <;> rfl

theorem nextInput_of_cons {l : List Input} (h : s.inputs = e :: l) : s.nextInput = e := by
  rw [State.nextInput, h, List.headD_cons]

theorem input_of_crcacc_ne (h : step s = .next t) (hne : t.crcacc ≠ s.crcacc) :
    s.nextInput = .reset ∨
    ∃ v : Word, s.nextInput = .hostWrite 0x00 v ∧ (v.extractLsb' 0 4 = 1#4 ∨ v.extractLsb' 0 4 = 2#4) := by
  obtain ⟨_, hx⟩ | ⟨e, l, i, hl, ho, hx⟩ | ⟨e, l, hl, _, rfl⟩ := step_cases h
  · have := crcCommand_of_crcacc_ne hx hne
    simp at this
  · rw [nextInput_of_cons hl]
    exact .inr (input_of_crcCommand ho (crcCommand_of_crcacc_ne hx hne))
  · rw [nextInput_of_cons hl]
    by_contra hreset
    exact hne (plainEffect_crcacc (fun he => hreset (.inl he)) (s.setInputs l))

end

/-- Settles O11: every other operation and every other plain effect keeps the accumulator. -/
theorem onlyCrcCommandsWriteTheAccumulator : Obligations.OnlyCrcCommandsWriteTheAccumulator :=
  ⟨fun _ _ _ => crcCommand_of_crcacc_ne, fun _ _ => input_of_crcacc_ne⟩

/-! #### The operand registers -/

section

variable {s t : State} {v : Word}

theorem decodeCommand_ne_readReq (dev : Byte) (start count crc : Word) :
    decodeCommand v ≠ .readReq dev start count crc := by
  unfold decodeCommand
  split <;> simp

theorem decodeCommand_ne_writeReq (dev : Byte) (reg val crc : Word) : decodeCommand v ≠ .writeReq dev reg val crc := by
  unfold decodeCommand
  split <;> simp

/-- No command writes the operand registers or `BUFIDX`; the two CRC commands write the accumulator beside them. -/
theorem exec_decodeCommand_operands (h : exec (decodeCommand v) s = .next t) : t.hostSide.2 = s.hostSide.2 := by
  by_cases hinit : decodeCommand v = .crcInit
  · rw [hinit] at h
    cases h
    rfl
  · by_cases hbyte : decodeCommand v = .crcByteCmd
    · rw [hbyte] at h
      cases h
      rfl
    · exact congrArg Prod.snd (exec_keeps_hostSide hinit hbyte decodeCommand_ne_readReq decodeCommand_ne_writeReq h)

end

/-- Settles O16: acceptance, refusal and the effects of the nine commands leave the four registers alone. -/
theorem commandsKeepOperandRegisters : Obligations.CommandsKeepOperandRegisters := by
  intro v s t h
  have hkept := exec_decodeCommand_operands h
  simpa only [State.hostSide, Prod.mk.injEq] using hkept

end Sys2Proof.Machine

namespace Sys2Proof.Machine

/-! ### States that agree on what can be seen (R20, R21, R31)

`SameVisible` is kept by every update that does not look at a buffer, since the update acts alike on the two states without
their buffers; the few that do look at one are below with the fact they need. -/

section

variable {s t : State}

/-- Equal sequences read are equal bytes. -/
theorem Memory.read_eq_of_readBytes_eq {m m' : Memory} {n i : Nat} (h : m.readBytes 0 n = m'.readBytes 0 n)
    (hi : i < n) : m.read i = m'.read i := by
  have hm := Memory.getElem_readBytes (m := m) (i := 0) (n := n) (j := i) (by simpa using hi)
  have hm' := Memory.getElem_readBytes (m := m') (i := 0) (n := n) (j := i) (by simpa using hi)
  rw [Nat.zero_add] at hm hm'
  rw [← hm, ← hm']
  simp only [h]

theorem SameVisible.txlen (h : SameVisible s t) : s.txlen = t.txlen := (congrArg State.txlen h.rest :)

theorem SameVisible.rxlen (h : SameVisible s t) : s.rxlen = t.rxlen := (congrArg State.rxlen h.rest :)

theorem SameVisible.rxexp (h : SameVisible s t) : s.rxexp = t.rxexp := (congrArg State.rxexp h.rest :)

theorem SameVisible.rxfifo (h : SameVisible s t) : s.rxfifo = t.rxfifo := (congrArg State.rxfifo h.rest :)

theorem SameVisible.res (h : SameVisible s t) : s.res = t.res := (congrArg State.res h.rest :)

theorem SameVisible.bufidx (h : SameVisible s t) : s.bufidx = t.bufidx := (congrArg State.bufidx h.rest :)

theorem SameVisible.inputs (h : SameVisible s t) : s.inputs = t.inputs := (congrArg State.inputs h.rest :)

theorem SameVisible.busy (h : SameVisible s t) : s.busy = t.busy := (congrArg State.busy h.rest :)

/-- A byte of the request held. -/
theorem SameVisible.txbuf_read (h : SameVisible s t) {i : Nat} (hi : i < s.txlen) : s.txbuf.read i = t.txbuf.read i :=
  Memory.read_eq_of_readBytes_eq (n := s.txlen) (by simpa only [State.txBytes, ← h.txlen] using h.tx) hi

/-- A byte of the reply held. -/
theorem SameVisible.rxbuf_read (h : SameVisible s t) {i : Nat} (hi : i < s.rxlen) : s.rxbuf.read i = t.rxbuf.read i :=
  Memory.read_eq_of_readBytes_eq (n := s.rxlen) (by simpa only [State.rxBytes, ← h.rxlen] using h.rx) hi

/-! #### What the host reads -/

theorem SameVisible.txWindow (h : SameVisible s t) : s.txWindow = t.txWindow := by
  simp only [State.txWindow, ← h.bufidx, ← h.txlen]
  split
  · next hi => exact h.txbuf_read hi
  · rfl

theorem SameVisible.rxWindow (h : SameVisible s t) : s.rxWindow = t.rxWindow := by
  simp only [State.rxWindow, ← h.bufidx, ← h.rxlen]
  split
  · next hi => exact h.rxbuf_read hi
  · rfl

/-- Only the two windows look at a buffer. -/
theorem SameVisible.readRegister (h : SameVisible s t) (r : Nat) : s.readRegister r = t.readRegister r := by
  unfold State.readRegister
  rw [h.txWindow, h.rxWindow]
  cases s
  cases t
  cases h.rest
  rfl

/-! #### Updates -/

/-- An update that looks at no buffer, and leaves the buffers and their lengths alone, keeps the agreement. -/
theorem SameVisible.update (h : SameVisible s t) (u : State → State)
    (hrest : ∀ s : State, { u s with txbuf := [], rxbuf := [] } = u { s with txbuf := [], rxbuf := [] } := by
      intro s; rfl)
    (htx : ∀ s, (u s).txBytes = s.txBytes := by intro s; rfl)
    (hrx : ∀ s, (u s).rxBytes = s.rxBytes := by intro s; rfl) : SameVisible (u s) (u t) :=
  ⟨by rw [hrest, hrest, h.rest], by rw [htx, htx, h.tx], by rw [hrx, hrx, h.rx]⟩

theorem SameVisible.resetBlock (h : SameVisible s t) : SameVisible s.resetBlock t.resetBlock :=
  ⟨(congrArg State.resetBlock h.rest :), rfl, rfl⟩

/-- With no byte held the two reply buffers may differ in every byte. -/
theorem SameVisible.expect (h : SameVisible s t) (n : Nat) : SameVisible (s.expect n) (t.expect n) :=
  ⟨congrArg (·.expect n) h.rest, h.tx, rfl⟩

/-- The framer overwrites all 8 bytes of `TXBUF`. -/
theorem SameVisible.setRequest (h : SameVisible s t) (hs : s.txbuf.wf Config.txCap = true)
    (ht : t.txbuf.wf Config.txCap = true) {f : List Byte} (hf : f.length = 8) :
    SameVisible (s.setRequest f) (t.setRequest f) :=
  ⟨congrArg (fun u : State => { u with txlen := Config.txCap }) h.rest,
    by rw [txBytes_setRequest hs hf, txBytes_setRequest ht hf], h.rx⟩

/-- The byte stored joins the bytes held. -/
theorem SameVisible.storeRx (h : SameVisible s t) (hs : s.rxbuf.wf Config.rxCap = true)
    (ht : t.rxbuf.wf Config.rxCap = true) (b : Byte) : SameVisible (s.storeRx b) (t.storeRx b) :=
  ⟨congrArg (fun u : State => { u with rxlen := u.rxlen + 1 }) h.rest, h.tx,
    by rw [rxBytes_storeRx hs, rxBytes_storeRx ht, h.rx]⟩

theorem SameVisible.decodeFrame (h : SameVisible s t) (f : List Byte) :
    SameVisible (s.decodeFrame f) (t.decodeFrame f) := h.update (·.decodeFrame f)

theorem SameVisible.timeOut (h : SameVisible s t) : SameVisible s.timeOut t.timeOut :=
  h.update State.timeOut

theorem SameVisible.linkFlush (h : SameVisible s t) : SameVisible s.linkFlush t.linkFlush := by
  simp only [State.linkFlush, ← h.busy]
  split
  · exact h
  · exact h.update (·.setFifo [])

theorem SameVisible.completeReception (h : SameVisible s t) :
    SameVisible s.completeReception t.completeReception := by
  simp only [State.completeReception, ← h.rxlen, ← h.rxexp, ← h.rx]
  split
  · exact h.update fun u => (u.decodeFrame s.rxBytes).setRxState .idle
  · exact h

theorem SameVisible.transfer (h : SameVisible s t) : SameVisible s.transfer t.transfer := by
  have hn : s.expbody = t.expbody := (congrArg State.expbody h.rest :)
  simp only [State.transfer, ← hn, ← h.tx]
  exact ((h.update (·.linkSend s.txBytes)).expect (s.expbody + 4)).update fun u =>
    (u.setRxState .receiving).setResults .cleared

/-- CHECK compares with bytes of a request that is there (R95). -/
theorem SameVisible.consistent (h : SameVisible s t) (hl : s.txlen = 8) : s.consistent = t.consistent := by
  have hread : ∀ i, i < 8 → s.txbuf.read i = t.txbuf.read i := fun i hi => h.txbuf_read (by omega)
  simp only [State.consistent, State.reqFunction, State.reqAddr, State.reqData, h.res, hread 1 (by decide),
    hread 2 (by decide), hread 3 (by decide), hread 4 (by decide), hread 5 (by decide)]

theorem SameVisible.writeRegister (h : SameVisible s t) (r : Nat) (v : Word) :
    SameVisible (s.writeRegister r v) (t.writeRegister r v) := by
  unfold State.writeRegister
  split
  · exact h.update fun u => { u with argDev := v.setWidth 8 }
  · exact h.update fun u => { u with argAddr := v }
  · exact h.update fun u => { u with argData := v }
  · exact h.update fun u => { u with bufidx := v.setWidth 9 }
  · exact h

theorem SameVisible.plainEffect (h : SameVisible s t) (e : Input) :
    SameVisible (e.plainEffect s) (e.plainEffect t) := by
  cases e with
  | hostWrite r v => exact h.writeRegister r v
  | hostRead r =>
    simp only [Input.plainEffect, h.readRegister r]
    exact h.update (·.setRetval (t.readRegister r))
  | deviceSend b => exact h.update (·.deviceSend [b])
  | receive => exact h
  | linkTimeout => exact h
  | linkFlush => exact h.linkFlush
  | reset => exact h.resetBlock
  | frame dir f =>
    cases dir with
    | toDevice => exact h
    | toBlock => exact h.update (·.deviceSend f)

/-! #### Operations and steps -/

/-- Two outcomes that are next states differ at most outside the valid lengths. -/
def OutcomesSameVisible (o p : Host.Outcome State Fault Refusal) : Prop :=
  ∀ s' t' : State, o = .next s' → p = .next t' → SameVisible s' t'

theorem outcomesSameVisible_next (h : SameVisible s t) : OutcomesSameVisible (.next s) (.next t) := by
  intro s' t' hs ht
  rw [← Host.Outcome.next.inj hs, ← Host.Outcome.next.inj ht]
  exact h

/-- The answer of a command agrees on two states when its precondition does, and, where that holds, its effect. -/
theorem SameVisible.answer (h : SameVisible s t) {p q : Bool} {u v : State} (hp : p = q)
    (he : p = true → SameVisible u v) :
    OutcomesSameVisible (.next (if p then u.accept else s.refuse)) (.next (if q then v.accept else t.refuse)) := by
  subst hp
  apply outcomesSameVisible_next
  cases p with
  | true => exact (he rfl).update State.accept
  | false => exact h.update State.refuse

/-- RxByte: the same byte is stored at the same place, or nothing happens. -/
theorem SameVisible.execRxByte (h : SameVisible s t) (hs : s.rxbuf.wf Config.rxCap = true)
    (ht : t.rxbuf.wf Config.rxCap = true) : OutcomesSameVisible (execRxByte s) (execRxByte t) := by
  unfold Machine.execRxByte
  rw [← h.busy, ← h.rxfifo, ← h.rxlen]
  split
  · split
    · exact outcomesSameVisible_next h
    · next b q _ =>
      split
      · have hq : SameVisible (s.setFifo q) (t.setFifo q) := h.update (·.setFifo q)
        exact outcomesSameVisible_next (hq.storeRx hs ht b).completeReception
      · intro s' t' hfault
        cases hfault
  · exact outcomesSameVisible_next h

theorem SameVisible.execRxTimeout (h : SameVisible s t) : OutcomesSameVisible (execRxTimeout s) (execRxTimeout t) := by
  unfold Machine.execRxTimeout
  rw [← h.busy, ← h.rxfifo]
  split
  · exact outcomesSameVisible_next h.timeOut
  · exact outcomesSameVisible_next h

/-- CHECK, accepted only with a request there. -/
theorem SameVisible.check (h : SameVisible s t) : OutcomesSameVisible (exec .check s) (exec .check t) := by
  rw [exec_check, exec_check]
  refine h.answer (congrArg State.mayCheck h.rest :) fun hp => ?_
  obtain ⟨_, hl, _⟩ := mayCheck_iff.mp hp
  rw [h.res, h.consistent hl]
  exact h.update (·.setResults { t.res with chk := if t.consistent then .pass else .violation })

/-- The framer at work for one of its two commands or for a request frame. -/
theorem SameVisible.encode (h : SameVisible s t) (hs : s.txbuf.wf Config.txCap = true)
    (ht : t.txbuf.wf Config.txCap = true) (dev fn : Byte) (a v : Word) :
    OutcomesSameVisible (.next (if s.mayEncode then (s.buildRequest dev fn a v).accept else s.refuse))
      (.next (if t.mayEncode then (t.buildRequest dev fn a v).accept else t.refuse)) :=
  h.answer (congrArg State.mayEncode h.rest :) fun _ => h.setRequest hs ht rfl

/-- Every operation on two states that agree. -/
theorem SameVisible.exec (h : SameVisible s t) (hs : Inv s) (ht : Inv t) (i : Instr) :
    OutcomesSameVisible (exec i s) (exec i t) := by
  have hdev : s.argDev = t.argDev := (congrArg State.argDev h.rest :)
  have haddr : s.argAddr = t.argAddr := (congrArg State.argAddr h.rest :)
  have hdata : s.argData = t.argData := (congrArg State.argData h.rest :)
  cases i with
  | nop => exact outcomesSameVisible_next (h.update State.accept)
  | crcInit => exact outcomesSameVisible_next (h.update fun u => (u.setCrcacc Config.crcInit).accept)
  | crcByteCmd =>
    exact outcomesSameVisible_next (h.update fun u => (u.setCrcacc (crcByte u.crcacc u.crcOperand)).accept)
  | encRead =>
    rw [exec_encRead, exec_encRead, hdev, haddr, hdata]
    exact h.encode hs.txBuffer ht.txBuffer t.argDev Config.fcRead t.argAddr t.argData
  | encWrite =>
    rw [exec_encWrite, exec_encWrite, hdev, haddr, hdata]
    exact h.encode hs.txBuffer ht.txBuffer t.argDev Config.fcWrite t.argAddr t.argData
  | xfer =>
    rw [exec_xfer, exec_xfer]
    exact h.answer (congrArg State.mayTransfer h.rest :) fun _ => h.transfer
  | decodeCmd =>
    rw [exec_decodeCmd, exec_decodeCmd, h.rx]
    exact h.answer (congrArg State.mayDecode h.rest :) fun _ => h.decodeFrame t.rxBytes
  | check => exact h.check
  | cmdReserved low => exact outcomesSameVisible_next (h.update State.refuse)
  | readReq dev start count crc =>
    rw [exec_readReq, exec_readReq]
    exact (h.update (·.setOperands dev start count)).encode hs.txBuffer ht.txBuffer dev Config.fcRead start count
  | writeReq dev reg val crc =>
    rw [exec_writeReq, exec_writeReq]
    exact (h.update (·.setOperands dev reg val)).encode hs.txBuffer ht.txBuffer dev Config.fcWrite reg val
  | errorReply dev func code crc =>
    exact outcomesSameVisible_next (h.update (·.deviceSend (withCrc (errorHead dev func code) crc)))
  | readReply dev payload crc =>
    exact outcomesSameVisible_next (h.update (·.deviceSend (withCrc (readReplyHead dev payload) crc)))
  | writeReply dev reg val crc =>
    exact outcomesSameVisible_next (h.update (·.deviceSend (withCrc (fieldsHead dev Config.fcWrite reg val) crc)))
  | unknownReply dev func body crc =>
    exact outcomesSameVisible_next (h.update (·.deviceSend (withCrc (unknownHead dev func body) crc)))
  | crcRound a => exact outcomesSameVisible_next (h.update (·.setRetval (crcRound a)))
  | crcByte a b => exact outcomesSameVisible_next (h.update (·.setRetval (crcByte a b)))
  | crc16 bytes => exact outcomesSameVisible_next (h.update (·.setRetval (crc16 bytes)))
  | rxByte => exact h.execRxByte hs.rxBuffer ht.rxBuffer
  | rxTimeout => exact h.execRxTimeout
  | decode bytes => exact outcomesSameVisible_next (h.decodeFrame bytes)

/-- The invariant does not speak of the inputs still to come. -/
theorem Inv.setInputs (h : Inv s) (l : List Input) : Inv (s.setInputs l) :=
  ⟨h.txBuffer, h.rxBuffer, h.txLength, h.request, h.rxLength, h.rxExpected, h.receiving, h.outcome, h.checked⟩

theorem SameVisible.step (h : SameVisible s t) (hs : Inv s) (ht : Inv t) :
    OutcomesSameVisible (step s) (step t) := by
  cases hi : s.inputs with
  | nil =>
    rw [step_of_nil hi, step_of_nil (h.inputs ▸ hi)]
    exact h.exec hs ht .rxByte
  | cons e l =>
    rw [step_of_cons hi, step_of_cons (h.inputs ▸ hi)]
    have hl : SameVisible (s.setInputs l) (t.setInputs l) := h.update (·.setInputs l)
    cases ho : e.operation with
    | some i =>
      rw [runInput_of_operation ho, runInput_of_operation ho]
      exact hl.exec (hs.setInputs l) (ht.setInputs l) i
    | none =>
      rw [runInput_of_plain ho, runInput_of_plain ho]
      exact outcomesSameVisible_next (hl.plainEffect e)

end

/-- Settles O50: the windows stop at the valid lengths, and every operation that reads a buffer reads it below its
length. -/
theorem bytesBeyondTheLengthsAreUnobservable : Obligations.BytesBeyondTheLengthsAreUnobservable :=
  fun _ _ hs ht h => ⟨h.readRegister, h.step hs ht⟩

end Sys2Proof.Machine

namespace Sys2Proof.Machine

/-! ### Reply frames (R54 to R56, R58, R60) -/

section

variable {f : List Byte} {i : Instr}

/-- A frame is its head and its checksum field. -/
theorem withCrc_crcField (h : 2 ≤ f.length) : withCrc (f.take (f.length - 2)) (crcField f) = f := by
  have htail : f.drop (f.length - 2) = le16 (crcField f) := by
    rw [crcField, le16_u16le, byteAt, byteAt, List.getD_eq_getElem _ _ (by omega), List.getD_eq_getElem _ _ (by omega)]
    apply List.ext_getElem
    · simp only [List.length_drop, List.length_cons, List.length_nil]
      omega
    · intro k _ hk
      simp only [List.length_cons, List.length_nil] at hk
      interval_cases k
      · simp
      · simp [show f.length - 2 + 1 = f.length - 1 by omega]
  rw [withCrc, ← htail, List.take_append_drop]

/-- The error flag is bit 7 of the function byte (R56). -/
theorem errorFlag_append {b : Byte} (h : b.getLsbD 7 = true) : 1#1 ++ b.extractLsb' 0 7 = b := by
  revert b
  decide

theorem errorHead_of_frame (hl : f.length = 5) (hflag : (byteAt f 1).getLsbD 7 = true) :
    errorHead (byteAt f 0) ((byteAt f 1).extractLsb' 0 7) (byteAt f 2) = f.take (f.length - 2) := by
  rw [errorHead, errorFlag_append hflag]
  match f, hl with
  | [_, _, _, _, _], _ => rfl

theorem readReplyHead_of_frame (hl : f.length = (byteAt f 2).toNat + 5) (hfn : byteAt f 1 = Config.fcRead) :
    readReplyHead (byteAt f 0) ((f.drop 3).take (byteAt f 2).toNat) = f.take (f.length - 2) := by
  match f, hl with
  | a :: b :: c :: rest, hl =>
    have hb : b = Config.fcRead := hfn
    have hc : rest.length = c.toNat + 2 := by simpa [byteAt] using hl
    simp [readReplyHead, byteAt, hb, hc]

theorem writeReplyHead_of_frame (hl : f.length = 8) (hfn : byteAt f 1 = Config.fcWrite) :
    fieldsHead (byteAt f 0) Config.fcWrite (u16be (byteAt f 2) (byteAt f 3)) (u16be (byteAt f 4) (byteAt f 5)) =
      f.take (f.length - 2) := by
  rw [fieldsHead, be16_u16be, be16_u16be, ← hfn]
  match f, hl with
  | [_, _, _, _, _, _, _, _], _ => rfl

theorem unknownHead_of_frame (hl : 4 ≤ f.length) :
    unknownHead (byteAt f 0) (byteAt f 1) ((f.drop 2).take (f.length - 4)) = f.take (f.length - 2) := by
  match f, hl with
  | a :: b :: rest, hl =>
    simp only [List.length_cons] at hl
    obtain ⟨k, hk⟩ := Nat.exists_eq_add_of_le' (show 2 ≤ rest.length by omega)
    simp [unknownHead, byteAt, hk]

/-- The format that a reply frame decodes to has that frame's bytes. -/
theorem encode_of_decodeReply (h : decodeReply f = .ok i) : encode i = some (.frame .toBlock f) := by
  have hsome (head : List Byte) (hf : 2 ≤ f.length) (hhead : head = f.take (f.length - 2)) :
      some (Code.frame .toBlock (withCrc head (crcField f))) = some (.frame .toBlock f) := by
    rw [hhead, withCrc_crcField hf]
  unfold decodeReply at h
  split at h
  case isTrue => cases h
  case isFalse hmin =>
    split at h
    case isTrue hflag =>
      split at h <;> cases h
      next hl => exact hsome _ (by omega) (errorHead_of_frame hl hflag)
    case isFalse =>
      split at h
      case isTrue hfn =>
        split at h <;> cases h
        next hl => exact hsome _ (by omega) (readReplyHead_of_frame hl hfn)
      case isFalse =>
        split at h
        case isTrue hfn =>
          split at h <;> cases h
          next hl => exact hsome _ (by omega) (writeReplyHead_of_frame hl hfn)
        case isFalse =>
          cases h
          exact hsome _ (by omega) (unknownHead_of_frame (by omega))

/-- A reply frame as an operation is the device sending it (R39). -/
theorem exec_of_decodeReply (h : decodeReply f = .ok i) (s : State) : exec i s = .next (s.deviceSend f) := by
  obtain ⟨f', hcode, hexec⟩ := exec_reply h s
  rw [encode_of_decodeReply h] at hcode
  cases hcode
  exact hexec

end

end Sys2Proof.Machine

namespace Sys2Proof.Machine

/-! ### What a step does on the wire side (R47)

The wire side of a state is the request, the reply, the receiver, the results and the link: all but the host side,
`CMDERR` and the model's own fields. The invariant and the claims about reception speak of it alone, and a step does one of
ten things to it. -/

section

variable {s t u w w' : State} {v : Word} {i : Instr} {e : Input}

/-- The state with every field that is not on the wire side at 0. -/
def State.wireSide (s : State) : State :=
  { s with
    argDev := 0#8, argAddr := 0#16, argData := 0#16, bufidx := 0#9, cmderr := false, crcacc := 0#16, inputs := [],
    retval := 0#16 }

/-- What a step whose input is `e` can make of the wire side `w`. -/
inductive WireStep (w : State) (e : Input) : State → Prop where
  /-- The device sends what it sends in `e`, perhaps nothing; all else stays (R39). -/
  | send : WireStep w e (w.deviceSend e.sent)
  /-- The transport discards the queue (R40). -/
  | flush (he : e = .linkFlush) (hidle : w.rxstate = .idle) : WireStep w e (w.setFifo [])
  /-- The platform resets the block (R121). -/
  | reset (he : e = .reset) : WireStep w e w.resetBlock.wireSide
  /-- The framer builds a request (R79, R81). -/
  | request (dev fn : Byte) (a v : Word) (hfn : fn = Config.fcRead ∨ fn = Config.fcWrite) (hidle : w.rxstate = .idle) :
      WireStep w e (w.buildRequest dev fn a v)
  /-- XFER sends the request and arms the receiver for `n + 4` bytes (R85). -/
  | transfer (v : Word) (n : Nat) (he : e = .hostWrite 0x00 v) (hcode : v.extractLsb' 0 4 = 5#4)
      (hidle : w.rxstate = .idle) (hl : w.txlen = 8) (hn : n ≤ 256) :
      WireStep w e
        { w with
          txstream := w.txstream ++ w.txBytes, rxlen := 0, rxexp := n + 4, rxstate := .receiving, res := .cleared }
  /-- The receiver stores a byte and more are to come (R88). -/
  | store (b : Byte) (q : List Byte) (he : e = .receive) (hrx : w.rxstate = .receiving) (hq : w.rxfifo = b :: q)
      (hmore : w.rxlen + 1 ≠ w.rxexp) : WireStep w e ((w.setFifo q).storeRx b)
  /-- The receiver stores the last byte, and the frame is classified (R88). -/
  | complete (b : Byte) (q : List Byte) (he : e = .receive) (hrx : w.rxstate = .receiving) (hq : w.rxfifo = b :: q)
      (hlast : w.rxlen + 1 = w.rxexp) :
      WireStep w e
        { (w.setFifo q).storeRx b with
          rxstate := .idle, res := decodeResults ((w.setFifo q).storeRx b).rxBytes }
  /-- The link fell silent (R89). -/
  | timeOut (he : e = .linkTimeout) (hrx : w.rxstate = .receiving) (hq : w.rxfifo = []) : WireStep w e w.timeOut
  /-- DECODE classifies the bytes held (R92). -/
  | decode (v : Word) (he : e = .hostWrite 0x00 v) (hcode : v.extractLsb' 0 4 = 6#4) (hidle : w.rxstate = .idle) :
      WireStep w e (w.decodeFrame w.rxBytes)
  /-- CHECK writes `CHK` (R95). -/
  | check (v : Word) (c : CheckCode) (he : e = .hostWrite 0x00 v) (hcode : v.extractLsb' 0 4 = 7#4)
      (hidle : w.rxstate = .idle) (hnormal : w.normalReply = true) : WireStep w e (w.setResults { w.res with chk := c })

/-- An input in which the device sends nothing may leave the wire side alone. -/
theorem WireStep.keep (he : e.sent = []) : WireStep w e w := by
  have h := WireStep.send (w := w) (e := e)
  rwa [he, State.deviceSend, List.append_nil] at h

/-- A command does on the wire side what its effect does where it is accepted, and nothing where it is refused. -/
theorem WireStep.of_answer {p : Bool} (he : e.sent = []) (hu : p = true → WireStep s.wireSide e u.wireSide) :
    WireStep s.wireSide e (if p then u.accept else s.refuse).wireSide := by
  cases p with
  | true => exact hu rfl
  | false => exact WireStep.keep he

theorem exec_decodeCommand_wireStep (h : exec (decodeCommand v) s = .next t) :
    WireStep s.wireSide (.hostWrite 0x00 v) t.wireSide := by
  unfold decodeCommand at h
  split at h
  case h_4 =>
    rw [exec_encRead] at h
    cases h
    exact WireStep.of_answer rfl fun hp =>
      .request s.argDev Config.fcRead s.argAddr s.argData (.inl rfl) (mayEncode_iff.mp hp)
  case h_5 =>
    rw [exec_encWrite] at h
    cases h
    exact WireStep.of_answer rfl fun hp =>
      .request s.argDev Config.fcWrite s.argAddr s.argData (.inr rfl) (mayEncode_iff.mp hp)
  case h_6 hcode =>
    rw [exec_xfer] at h
    cases h
    refine WireStep.of_answer rfl fun hp => ?_
    obtain ⟨hidle, hl, hn⟩ := mayTransfer_iff.mp hp
    exact .transfer v s.expbody rfl (BitVec.eq_of_toNat_eq hcode) hidle hl hn
  case h_7 hcode =>
    rw [exec_decodeCmd] at h
    cases h
    exact WireStep.of_answer rfl fun hp => .decode v rfl (BitVec.eq_of_toNat_eq hcode) (mayDecode_iff.mp hp)
  case h_8 hcode =>
    rw [exec_check] at h
    cases h
    refine WireStep.of_answer rfl fun hp => ?_
    obtain ⟨hidle, _, hnormal⟩ := mayCheck_iff.mp hp
    exact .check v _ rfl (BitVec.eq_of_toNat_eq hcode) hidle (normalReply_iff.mpr hnormal)
  all_goals
    cases h
    exact WireStep.keep rfl

theorem exec_rxByte_wireStep (h : exec .rxByte s = .next t) : WireStep s.wireSide .receive t.wireSide := by
  change execRxByte s = .next t at h
  obtain ⟨_, hx⟩ | ⟨_, _, hx⟩ | ⟨b, q, hrx, hq, _, hmore, hx⟩ | ⟨b, q, hrx, hq, _, hlast, hx⟩ | ⟨_, _, _, hx⟩ :=
    execRxByte_cases s <;> rw [hx] at h <;> cases h
  · exact WireStep.keep rfl
  · exact WireStep.keep rfl
  · exact .store b q rfl hrx hq hmore
  · exact .complete b q rfl hrx hq hlast

theorem exec_rxTimeout_wireStep (h : exec .rxTimeout s = .next t) :
    WireStep s.wireSide .linkTimeout t.wireSide := by
  change execRxTimeout s = .next t at h
  obtain ⟨hrx, hq, hx⟩ | ⟨_, hx⟩ := execRxTimeout_cases s <;> rw [hx] at h <;> cases h
  · exact .timeOut rfl hrx hq
  · exact WireStep.keep rfl

theorem exec_request_wireStep {f : List Byte} (hf : decodeRequest f = .ok i) (h : exec i s = .next t) :
    WireStep s.wireSide (.frame .toDevice f) t.wireSide := by
  obtain ⟨dev, a, v, c, rfl⟩ | ⟨dev, a, v, c, rfl⟩ := decodeRequest_cases hf
  · rw [exec_readReq] at h
    cases h
    exact WireStep.of_answer (s := s.setOperands dev a v) rfl fun hp =>
      .request dev Config.fcRead a v (.inl rfl) (mayEncode_iff.mp hp)
  · rw [exec_writeReq] at h
    cases h
    exact WireStep.of_answer (s := s.setOperands dev a v) rfl fun hp =>
      .request dev Config.fcWrite a v (.inr rfl) (mayEncode_iff.mp hp)

theorem exec_reply_wireStep {f : List Byte} (hf : decodeReply f = .ok i) (h : exec i s = .next t) :
    WireStep s.wireSide (.frame .toBlock f) t.wireSide := by
  rw [exec_of_decodeReply hf] at h
  cases h
  exact .send

/-- Whatever operation an input launches. -/
theorem operation_wireStep (ho : e.operation = some i) (h : exec i s = .next t) :
    WireStep s.wireSide e t.wireSide := by
  obtain ⟨v, rfl, rfl⟩ | ⟨rfl, rfl⟩ | ⟨rfl, rfl⟩ | ⟨f, rfl, hf⟩ | ⟨f, rfl, hf⟩ := operation_cases ho
  · exact exec_decodeCommand_wireStep h
  · exact exec_rxByte_wireStep h
  · exact exec_rxTimeout_wireStep h
  · exact exec_request_wireStep hf h
  · exact exec_reply_wireStep hf h

@[simp] theorem writeRegister_wireSide (s : State) (r : Nat) (v : Word) :
    (s.writeRegister r v).wireSide = s.wireSide := by
  unfold State.writeRegister
  split <;> rfl

theorem plainEffect_wireStep (e : Input) (s : State) : WireStep s.wireSide e (e.plainEffect s).wireSide := by
  cases e with
  | hostWrite r v =>
    rw [Input.plainEffect, writeRegister_wireSide]
    exact WireStep.keep rfl
  | hostRead | receive | linkTimeout => exact WireStep.keep rfl
  | deviceSend b => exact .send
  | linkFlush =>
    rw [Input.plainEffect, State.linkFlush]
    split
    · exact WireStep.keep rfl
    · next hb => exact .flush rfl (not_busy_iff.mp (Bool.not_eq_true _ ▸ hb))
  | reset => exact .reset rfl
  | frame dir f =>
    cases dir with
    | toDevice => exact WireStep.keep rfl
    | toBlock => exact .send

/-- All that a step can do on the wire side. -/
theorem step_wireStep (h : step s = .next t) : WireStep s.wireSide s.nextInput t.wireSide := by
  obtain ⟨hi, hx⟩ | ⟨e, l, i, hi, ho, hx⟩ | ⟨e, l, hi, _, rfl⟩ := step_cases h
  · rw [State.nextInput, hi]
    exact exec_rxByte_wireStep hx
  · rw [nextInput_of_cons hi]
    exact operation_wireStep (s := s.setInputs l) ho hx
  · rw [nextInput_of_cons hi]
    exact plainEffect_wireStep e (s.setInputs l)

end

end Sys2Proof.Machine

namespace Sys2Proof.Machine

/-! ### Every step keeps the invariant (R35) -/

section

variable {s t w w' : State} {e : Input}

/-- The invariant speaks of the wire side alone. -/
theorem inv_wireSide : Inv s.wireSide ↔ Inv s :=
  ⟨fun h =>
    ⟨h.txBuffer, h.rxBuffer, h.txLength, h.request, h.rxLength, h.rxExpected, h.receiving, h.outcome, h.checked⟩,
   fun h =>
    ⟨h.txBuffer, h.rxBuffer, h.txLength, h.request, h.rxLength, h.rxExpected, h.receiving, h.outcome, h.checked⟩⟩

theorem Inv.setFifo (h : Inv s) (q : List Byte) : Inv (s.setFifo q) :=
  ⟨h.txBuffer, h.rxBuffer, h.txLength, h.request, h.rxLength, h.rxExpected, h.receiving, h.outcome, h.checked⟩

/-- After a reset nothing is held, awaited or recorded (R33). -/
theorem inv_resetBlock (s : State) : Inv s.resetBlock where
  txBuffer := rfl
  rxBuffer := rfl
  txLength := .inl rfl
  request := nofun
  rxLength := le_rfl
  rxExpected := .inl rfl
  receiving := nofun
  outcome := fun _ => .inl rfl
  checked := fun h => absurd rfl h

/-- A frame closed with its own checksum has a right one (R51). -/
theorem checksumValid_sealed (head : List Byte) : checksumValid (sealed head) = true := by
  simp [checksumValid, sealed, withCrc, le16, byteAt, u16le_le16]

theorem Inv.buildRequest (h : Inv s) (hidle : s.rxstate = .idle) {dev fn : Byte} {a v : Word}
    (hfn : fn = Config.fcRead ∨ fn = Config.fcWrite) : Inv (s.buildRequest dev fn a v) where
  txBuffer := wf_setRequest h.txBuffer rfl
  rxBuffer := h.rxBuffer
  txLength := .inr rfl
  request := fun _ => by
    rw [State.buildRequest, State.reqFunction, txBytes_setRequest h.txBuffer rfl,
      txbuf_read_setRequest h.txBuffer rfl (by decide)]
    exact ⟨checksumValid_sealed _, hfn⟩
  rxLength := h.rxLength
  rxExpected := h.rxExpected
  receiving := fun hrx => by cases hidle.symm.trans hrx
  outcome := h.outcome
  checked := h.checked

/-- The receiver armed for at most 260 bytes, none of them held yet (R85). -/
theorem Inv.armed (h : Inv s) (hl : s.txlen = 8) {n : Nat} (hn : n ≤ 256) (f : List Byte) :
    Inv { s with txstream := f, rxlen := 0, rxexp := n + 4, rxstate := .receiving, res := .cleared } where
  txBuffer := h.txBuffer
  rxBuffer := h.rxBuffer
  txLength := h.txLength
  request := h.request
  rxLength := Nat.zero_le _
  rxExpected := .inr ⟨Nat.le_add_left 4 n, Nat.add_le_add_right hn 4⟩
  receiving := fun _ => ⟨Nat.succ_pos _, hl, rfl⟩
  outcome := nofun
  checked := fun hchk => absurd rfl hchk

/-- While a byte is missing there is room for it (R35). -/
theorem Inv.rxlen_lt (h : Inv s) (hrx : s.rxstate = .receiving) : s.rxlen < Config.rxCap :=
  (h.receiving hrx).1.trans_le h.rxexp_le

/-- A byte stored before the last one. -/
theorem Inv.storeRx (h : Inv s) (hrx : s.rxstate = .receiving) (hmore : s.rxlen + 1 ≠ s.rxexp) (b : Byte) :
    Inv (s.storeRx b) := by
  obtain ⟨hmissing, hl, hres⟩ := h.receiving hrx
  exact
    { txBuffer := h.txBuffer
      rxBuffer := Memory.wf_write h.rxBuffer (h.rxlen_lt hrx)
      txLength := h.txLength
      request := h.request
      rxLength := hmissing
      rxExpected := h.rxExpected
      receiving := fun _ => ⟨lt_of_le_of_ne hmissing hmore, hl, hres⟩
      outcome := fun hidle => by cases hrx.symm.trans hidle
      checked := h.checked }

@[simp] theorem decodeResults_chk (f : List Byte) : (decodeResults f).chk = .none := by simp [decodeResults]

theorem Results.withoutChk_eq_self {r : Results} (h : r.chk = .none) : { r with chk := .none } = r := by
  rw [← h]

/-- The last byte stored and the frame classified. -/
theorem Inv.complete (h : Inv s) (hrx : s.rxstate = .receiving) (b : Byte) :
    Inv { s.storeRx b with rxstate := .idle, res := decodeResults (s.storeRx b).rxBytes } where
  txBuffer := h.txBuffer
  rxBuffer := Memory.wf_write h.rxBuffer (h.rxlen_lt hrx)
  txLength := h.txLength
  request := h.request
  rxLength := (h.receiving hrx).1
  rxExpected := h.rxExpected
  receiving := nofun
  outcome := fun _ => .inr (.inr (Results.withoutChk_eq_self (decodeResults_chk (s.storeRx b).rxBytes)))
  checked := fun hchk => absurd (decodeResults_chk (s.storeRx b).rxBytes) hchk

theorem Inv.timeOut (h : Inv s) (hrx : s.rxstate = .receiving) : Inv s.timeOut := by
  obtain ⟨_, _, hcleared⟩ := h.receiving hrx
  have hres : s.timeOut.res = Reply.truncated.record .cleared := congrArg (Reply.record · .truncated) hcleared
  exact
    { txBuffer := h.txBuffer
      rxBuffer := h.rxBuffer
      txLength := h.txLength
      request := h.request
      rxLength := h.rxLength
      rxExpected := h.rxExpected
      receiving := nofun
      outcome := fun _ => .inr (.inl (by rw [hres]; rfl))
      checked := fun hchk => absurd (by rw [hres]; rfl) hchk }

/-- DECODE in `IDLE` (R92). -/
theorem Inv.decodeHeld (h : Inv s) (hidle : s.rxstate = .idle) : Inv (s.decodeFrame s.rxBytes) where
  txBuffer := h.txBuffer
  rxBuffer := h.rxBuffer
  txLength := h.txLength
  request := h.request
  rxLength := h.rxLength
  rxExpected := h.rxExpected
  receiving := fun hrx => by cases hidle.symm.trans hrx
  outcome := fun _ => .inr (.inr (Results.withoutChk_eq_self (decodeResults_chk s.rxBytes)))
  checked := fun hchk => absurd (decodeResults_chk s.rxBytes) hchk

/-- `CHK` written on a normal reply (R95). -/
theorem Inv.setChk (h : Inv s) (hidle : s.rxstate = .idle) (hnormal : s.normalReply = true) (c : CheckCode) :
    Inv (s.setResults { s.res with chk := c }) where
  txBuffer := h.txBuffer
  rxBuffer := h.rxBuffer
  txLength := h.txLength
  request := h.request
  rxLength := h.rxLength
  rxExpected := h.rxExpected
  receiving := fun hrx => by cases hidle.symm.trans hrx
  outcome := h.outcome
  checked := fun _ => hnormal

theorem WireStep.keeps_inv (h : WireStep w e w') (hw : Inv w) : Inv w' := by
  cases h with
  | send => exact hw.setFifo (w.rxfifo ++ e.sent)
  | flush => exact hw.setFifo []
  | reset => exact inv_wireSide.mpr (inv_resetBlock w)
  | request dev fn a v hfn hidle => exact hw.buildRequest hidle hfn
  | transfer v n _ _ _ hl hn => exact hw.armed hl hn (w.txstream ++ w.txBytes)
  | store b q _ hrx _ hmore => exact (hw.setFifo q).storeRx hrx hmore b
  | complete b q _ hrx => exact (hw.setFifo q).complete hrx b
  | timeOut _ hrx => exact hw.timeOut hrx
  | decode v _ _ hidle => exact hw.decodeHeld hidle
  | check v c _ _ hidle hnormal => exact hw.setChk hidle hnormal c

theorem Inv.step (h : Inv s) (hs : step s = .next t) : Inv t :=
  inv_wireSide.mp ((step_wireStep hs).keeps_inv (inv_wireSide.mpr h))

/-- RxByte has room for its byte, and no other operation can stop. -/
theorem Inv.exec_next (h : Inv s) (i : Instr) : ∃ t, exec i s = .next t := by
  cases i with
  | rxByte =>
    obtain ⟨_, hx⟩ | ⟨_, _, hx⟩ | ⟨_, _, _, _, _, _, hx⟩ | ⟨_, _, _, _, _, _, hx⟩ | ⟨hrx, _, hfull, _⟩ :=
      execRxByte_cases s
    case inr.inr.inr.inr => exact absurd (h.rxlen_lt hrx) (Nat.not_lt.mpr hfull)
    all_goals exact ⟨_, hx⟩
  | rxTimeout =>
    obtain ⟨_, _, hx⟩ | ⟨_, hx⟩ := execRxTimeout_cases s
    · exact ⟨_, hx⟩
    · exact ⟨_, hx⟩
  | encRead => exact ⟨_, exec_encRead s⟩
  | encWrite => exact ⟨_, exec_encWrite s⟩
  | xfer => exact ⟨_, exec_xfer s⟩
  | decodeCmd => exact ⟨_, exec_decodeCmd s⟩
  | check => exact ⟨_, exec_check s⟩
  | readReq dev start count crc => exact ⟨_, exec_readReq dev start count crc s⟩
  | writeReq dev reg val crc => exact ⟨_, exec_writeReq dev reg val crc s⟩
  | nop | crcInit | crcByteCmd | cmdReserved | errorReply | readReply | writeReply | unknownReply | crcRound | crcByte |
    crc16 | decode => exact ⟨_, rfl⟩

theorem Inv.step_next (h : Inv s) : ∃ t, Machine.step s = .next t := by
  cases hi : s.inputs with
  | nil =>
    rw [step_of_nil hi]
    exact h.exec_next .rxByte
  | cons e l =>
    rw [step_of_cons hi]
    cases ho : e.operation with
    | some i =>
      rw [runInput_of_operation ho]
      exact (h.setInputs l).exec_next i
    | none => exact ⟨_, runInput_of_plain ho (s.setInputs l)⟩

theorem Inv.run_next (h : Inv s) (k : Nat) : ∃ t, Host.Core.run core k s = .next t := by
  induction k generalizing s with
  | zero => exact ⟨s, rfl⟩
  | succ k ih =>
    obtain ⟨u, hu⟩ := h.step_next
    rw [run_succ hu]
    exact ih (h.step hu)

end

/-- Settles O59: each of the ten things a step can do on the wire side keeps the invariant. -/
theorem stepKeepsTheInvariant : Obligations.StepKeepsTheInvariant := fun _ _ => Inv.step

/-- Settles O60: from a state that meets the invariant a step is answered by another such state, so by induction every
run is. -/
theorem noRunFaults : Obligations.NoRunFaults := fun _ => Inv.run_next

end Sys2Proof.Machine

namespace Sys2Proof.Machine

/-! ### What stays on the wire side (R47, R49, R111) -/

section

variable {s t w w' : State} {e : Input}

theorem WireStep.keeps_arrivalOrder (h : WireStep w e w') (hw : Inv w) (hrx : w.rxstate = .receiving)
    (he : e ≠ .reset) : w'.rxBytes ++ w'.rxfifo = w.rxBytes ++ w.rxfifo ++ e.sent := by
  cases h with
  | reset hreset => exact absurd hreset he
  | send => exact (List.append_assoc w.rxBytes w.rxfifo e.sent).symm
  | store b q hin _ hq | complete b q hin _ hq =>
    have hstored : (w.storeRx b).rxBytes ++ q = w.rxBytes ++ w.rxfifo := by
      rw [rxBytes_storeRx hw.rxBuffer, hq, List.append_assoc, List.singleton_append]
    rw [hin]
    exact hstored.trans (List.append_nil _).symm
  | timeOut hin =>
    rw [hin]
    exact (List.append_nil _).symm
  | flush _ hidle | request _ _ _ _ _ hidle | transfer _ _ _ _ hidle | decode _ _ _ hidle | check _ _ _ _ hidle =>
    cases hrx.symm.trans hidle

theorem WireStep.keeps_request (h : WireStep w e w') (hrx : w.rxstate = .receiving) :
    w'.txstream = w.txstream ∧ (e ≠ .reset → w'.txbuf = w.txbuf ∧ w'.txlen = w.txlen) := by
  cases h with
  | reset hreset => exact ⟨rfl, fun he => absurd hreset he⟩
  | send | store | complete | timeOut => exact ⟨rfl, fun _ => ⟨rfl, rfl⟩⟩
  | flush _ hidle | request _ _ _ _ _ hidle | transfer _ _ _ _ hidle | decode _ _ _ hidle | check _ _ _ _ hidle =>
    cases hrx.symm.trans hidle

/-- The input writes a value with code `op` to `CMD`. -/
def Input.Launches (e : Input) (op : BitVec 4) : Prop := ∃ v : Word, e = .hostWrite 0x00 v ∧ v.extractLsb' 0 4 = op

theorem WireStep.input_of_res_ne (h : WireStep w e w') (hidle : w.rxstate = .idle)
    (hne : { w'.res with chk := w.res.chk } ≠ w.res) : e.Launches 5#4 ∨ e.Launches 6#4 ∨ e = .reset := by
  cases h with
  | transfer v _ he hcode => exact .inl ⟨v, he, hcode⟩
  | decode v he hcode => exact .inr (.inl ⟨v, he, hcode⟩)
  | reset he => exact .inr (.inr he)
  | send | flush | request | check => exact absurd rfl hne
  | store _ _ _ hrx | complete _ _ _ hrx | timeOut _ hrx => cases hidle.symm.trans hrx

theorem WireStep.input_of_chk_ne (h : WireStep w e w') (hidle : w.rxstate = .idle) (hne : w'.res.chk ≠ w.res.chk) :
    e.Launches 5#4 ∨ e.Launches 6#4 ∨ e.Launches 7#4 ∨ e = .reset := by
  cases h with
  | transfer v _ he hcode => exact .inl ⟨v, he, hcode⟩
  | decode v he hcode => exact .inr (.inl ⟨v, he, hcode⟩)
  | check v _ he hcode => exact .inr (.inr (.inl ⟨v, he, hcode⟩))
  | reset he => exact .inr (.inr (.inr he))
  | send | flush | request => exact absurd rfl hne
  | store _ _ _ hrx | complete _ _ _ hrx | timeOut _ hrx => cases hidle.symm.trans hrx

theorem WireStep.input_of_reception_ne (h : WireStep w e w') (hidle : w.rxstate = .idle)
    (hne : w'.rxbuf ≠ w.rxbuf ∨ w'.rxlen ≠ w.rxlen ∨ w'.rxexp ≠ w.rxexp) : e.Launches 5#4 ∨ e = .reset := by
  cases h with
  | transfer v _ he hcode => exact .inl ⟨v, he, hcode⟩
  | reset he => exact .inr he
  | send | flush | request | decode | check =>
    obtain hne | hne | hne := hne <;> exact absurd rfl hne
  | store _ _ _ hrx | complete _ _ _ hrx | timeOut _ hrx => cases hidle.symm.trans hrx

end

/-- Settles O25: in `RECEIVING` only a byte sent joins the queue, and a byte stored leaves its head for the end of the bytes
held. -/
theorem arrivalOrderIsKept : Obligations.ArrivalOrderIsKept := fun _ _ hinv hrx he hs =>
  (step_wireStep hs).keeps_arrivalOrder (inv_wireSide.mpr hinv) hrx he

/-- Settles O26: what sends or builds a request needs `IDLE`. -/
theorem halfDuplexAndRequestKept : Obligations.HalfDuplexAndRequestKept := fun _ _ hrx hs =>
  (step_wireStep hs).keeps_request hrx

/-- Settles O43: in `IDLE` only XFER, DECODE, CHECK and a reset write what the clauses speak of. -/
theorem resultsStayUntilReplaced : Obligations.ResultsStayUntilReplaced := fun _ _ hidle hs =>
  have hw := step_wireStep hs
  ⟨hw.input_of_res_ne hidle, hw.input_of_chk_ne hidle, hw.input_of_reception_ne hidle⟩

/-! ### Commands run twice (R46) -/

section

variable {s t : State} {i : Instr}

/-- A command run twice: what it did the first time leaves its precondition as it was, and its effect done again changes
nothing. -/
theorem exec_twice {p : State → Bool} {effect : State → State}
    (hanswer : ∀ s, exec i s = .next (if p s then (effect s).accept else s.refuse))
    (hrefuse : p s.refuse = p s) (haccept : p (effect s).accept = p s)
    (heffect : (effect (effect s).accept).accept = (effect s).accept) (h : exec i s = .next t) :
    exec i t = .next t := by
  cases hp : p s with
  | true =>
    have ht : t = (effect s).accept := by simpa [hanswer, hp] using h.symm
    rw [ht, hanswer, haccept, hp, if_pos rfl, heffect]
  | false =>
    have ht : t = s.refuse := by simpa [hanswer, hp] using h.symm
    rw [ht, hanswer, hrefuse, hp]
    rfl

/-- Storing the same bytes again changes nothing. -/
theorem Memory.writeBytes_twice {m : Memory} {cap j : Nat} {f : List Byte} (h : m.wf cap = true)
    (hj : j + f.length ≤ cap) : (m.writeBytes j f).writeBytes j f = m.writeBytes j f := by
  have hm := Memory.wf_writeBytes h hj
  refine Memory.ext_wf (Memory.wf_writeBytes hm hj) hm fun k _ => ?_
  by_cases hk : k < j ∨ j + f.length ≤ k
  · exact Memory.read_writeBytes_other hk
  · obtain ⟨d, rfl⟩ := Nat.exists_eq_add_of_le (show j ≤ k by omega)
    rw [Memory.read_writeBytes hm hj (by omega), Memory.read_writeBytes h hj (by omega)]

theorem setRequest_twice (h : s.txbuf.wf Config.txCap = true) {f : List Byte} (hf : f.length = 8) :
    ((s.setRequest f).accept.setRequest f).accept = (s.setRequest f).accept := by
  have hbuf := Memory.writeBytes_twice (j := 0) (f := f) h (by simp [hf, Config.txCap])
  exact congrArg (fun m => ({ s with txbuf := m, txlen := Config.txCap, cmderr := false } : State)) hbuf

theorem exec_crcInit_twice (h : exec .crcInit s = .next t) : exec .crcInit t = .next t := by
  cases h
  rfl

theorem exec_encRead_twice (hs : s.txbuf.wf Config.txCap = true) (h : exec .encRead s = .next t) :
    exec .encRead t = .next t :=
  exec_twice exec_encRead rfl rfl (setRequest_twice hs rfl) h

theorem exec_encWrite_twice (hs : s.txbuf.wf Config.txCap = true) (h : exec .encWrite s = .next t) :
    exec .encWrite t = .next t :=
  exec_twice exec_encWrite rfl rfl (setRequest_twice hs rfl) h

/-- DECODE does not change the bytes it classifies. -/
theorem exec_decodeCmd_twice (h : exec .decodeCmd s = .next t) : exec .decodeCmd t = .next t :=
  exec_twice exec_decodeCmd rfl rfl rfl h

/-- CHECK reads neither `CHK` nor `CMDERR`. -/
theorem exec_check_twice (h : exec .check s = .next t) : exec .check t = .next t :=
  exec_twice exec_check rfl rfl rfl h

end

/-- CRC_BYTE keeps a state only where the byte keeps the accumulator. -/
theorem crcByte_of_exec_self {s : State} (h : exec .crcByteCmd s = .next s) :
    crcByte s.crcacc s.crcOperand = s.crcacc := congrArg State.crcacc (Host.Outcome.next.inj h)

/-- After reset, with the operand 0x00: the accumulator is 0xFFFF, then 0x40BF, then another value. -/
theorem crcByteCmd_not_idempotent : ∃ s t : State, exec .crcByteCmd s = .next t ∧ exec .crcByteCmd t ≠ .next t := by
  refine ⟨State.reset, (State.reset.setCrcacc 0x40BF#16).accept, ?_, fun h => ?_⟩
  · rw [exec_crcByteCmd, show crcByte State.reset.crcacc State.reset.crcOperand = 0x40BF#16 by decide]
  · exact absurd (crcByte_of_exec_self h) (by decide)

/-- An accepted XFER puts a transaction in flight, so that the next one is refused (R68). -/
theorem exec_xfer_transfer (s : State) : exec .xfer s.transfer.accept = .next s.transfer.accept.refuse := rfl

/-- A second XFER gives another state: `CMDERR` tells that it was refused. -/
theorem xfer_not_idempotent : ∃ s t : State, exec .xfer s = .next t ∧ exec .xfer t ≠ .next t := by
  let s := State.reset.buildRequest 0x01#8 Config.fcRead 0x0008#16 0x0001#16
  refine ⟨s, s.transfer.accept, rfl, fun h => ?_⟩
  rw [exec_xfer_transfer] at h
  have hcmderr : true = false := congrArg State.cmderr (Host.Outcome.next.inj h)
  cases hcmderr

/-- Settles O17: each of the five writes what it does not read; the other two are shown on states after reset. -/
theorem fiveCommandsAreIdempotent : Obligations.FiveCommandsAreIdempotent := by
  refine ⟨fun i s t hi hinv h => ?_, crcByteCmd_not_idempotent, xfer_not_idempotent⟩
  obtain rfl | rfl | rfl | rfl | rfl := hi
  · exact exec_crcInit_twice h
  · exact exec_encRead_twice hinv.txBuffer h
  · exact exec_encWrite_twice hinv.txBuffer h
  · exact exec_decodeCmd_twice h
  · exact exec_check_twice h

end Sys2Proof.Machine

namespace Sys2Proof.Machine

/-! ### The code of a command, and what refuses it (R13, R61 to R63, R66, R107) -/

section

variable {v w : Word} {s : State} {i : Instr}

/-- The three bits a reserved command keeps lie among the four of its code, so that the code says all (R61). -/
theorem decodeCommand_congr (h : v.extractLsb' 0 4 = w.extractLsb' 0 4) : decodeCommand v = decodeCommand w := by
  have hlow : v.extractLsb' 0 3 = w.extractLsb' 0 3 := by
    rw [← BitVec.extractLsb'_extractLsb'_of_le (show 0 + 3 ≤ 4 by decide), h,
      BitVec.extractLsb'_extractLsb'_of_le (by decide)]
  rw [decodeCommand, decodeCommand, h, hlow]

/-- The bits above the code have no effect (R61). -/
theorem decodeCommand_append (x : BitVec 12) (c : BitVec 4) : decodeCommand (x ++ c) = decodeCommand (0#12 ++ c) :=
  decodeCommand_congr (BitVec.extractLsb'_append_eq_right.trans BitVec.extractLsb'_append_eq_right.symm)

/-- Bit 3 is the top bit of the code (R63). -/
theorem code_ge_eight (h : v.getLsbD 3 = true) : 8 ≤ (v.extractLsb' 0 4).toNat := by
  have hbit : (v.extractLsb' 0 4).getLsbD 3 = true := by simpa using h
  exact Nat.ge_two_pow_of_testBit hbit

theorem decodeCommand_reserved (h : 8 ≤ (v.extractLsb' 0 4).toNat) :
    decodeCommand v = .cmdReserved (v.extractLsb' 0 3) := by
  unfold decodeCommand
  split
  case h_9 => rfl
  all_goals omega

/-- A command that answers by its precondition `p` is refused exactly for `cause`, where `p` says that `cause` is absent
(R66). -/
theorem refusedExactly_of_answer {p : Bool} {u : State} {cause : Prop}
    (hanswer : exec i s = .next (if p then u.accept else s.refuse)) (hp : ¬ cause ↔ p = true) :
    (cause → exec i s = .next { s with cmderr := true }) ∧
    (¬ cause → ∃ t, exec i s = .next t ∧ t.cmderr = false) := by
  rw [hanswer]
  cases p with
  | true => exact ⟨fun h => absurd h (hp.mpr rfl), fun _ => ⟨_, rfl, rfl⟩⟩
  | false => exact ⟨fun _ => rfl, fun h => nomatch hp.mp h⟩

theorem not_receiving_iff : ¬ s.rxstate = .receiving ↔ s.rxstate = .idle := by
  cases s.rxstate <;> decide

/-! The causes of R107 for each code, against the preconditions of R68. -/

theorem not_refusalCause_of_unconditional (h : (v.extractLsb' 0 4).toNat ≤ 2) : ¬ RefusalCause v s := by
  dsimp only [RefusalCause]
  omega

theorem not_refusalCause_iff_mayEncode (h : (v.extractLsb' 0 4).toNat = 3 ∨ (v.extractLsb' 0 4).toNat = 4) :
    ¬ RefusalCause v s ↔ s.mayEncode = true := by
  obtain h | h := h <;> simp [RefusalCause, h, mayEncode_iff, not_receiving_iff]

theorem not_refusalCause_iff_mayTransfer (h : (v.extractLsb' 0 4).toNat = 5) :
    ¬ RefusalCause v s ↔ s.mayTransfer = true := by
  simp [RefusalCause, h, mayTransfer_iff, not_receiving_iff]

theorem not_refusalCause_iff_mayDecode (h : (v.extractLsb' 0 4).toNat = 6) :
    ¬ RefusalCause v s ↔ s.mayDecode = true := by
  simp [RefusalCause, h, mayDecode_iff, not_receiving_iff]

theorem not_refusalCause_iff_mayCheck (h : (v.extractLsb' 0 4).toNat = 7) :
    ¬ RefusalCause v s ↔ s.mayCheck = true := by
  simp [RefusalCause, h, mayCheck_iff, not_receiving_iff, ← or_iff_not_imp_left]

end

/-- Settles O15: the code alone selects the command, so the eight codes are read with the other bits 0. -/
theorem commandCodeIsTheLowFourBits : Obligations.CommandCodeIsTheLowFourBits :=
  ⟨fun _ _ => decodeCommand_congr, fun x => by
    simp only [decodeCommand_append x]
    decide⟩

/-- Settles O13: bit 3 makes the code 8 or more. -/
theorem reservedCodeSetsCmderrOnly : Obligations.ReservedCodeSetsCmderrOnly := fun v s h =>
  ⟨v.extractLsb' 0 3, decodeCommand_reserved (code_ge_eight h), exec_cmdReserved _ s⟩

/-- Settles O14: command by command, the causes of its code are what falsifies its precondition (R68). -/
theorem commandIsRefusedExactlyForItsCauses : Obligations.CommandIsRefusedExactlyForItsCauses := by
  intro v s
  unfold decodeCommand
  split
  case h_1 hcode | h_2 hcode | h_3 hcode =>
    exact ⟨fun h => absurd h (not_refusalCause_of_unconditional (by omega)), fun _ => ⟨_, rfl, rfl⟩⟩
  case h_4 hcode => exact refusedExactly_of_answer (exec_encRead s) (not_refusalCause_iff_mayEncode (.inl hcode))
  case h_5 hcode => exact refusedExactly_of_answer (exec_encWrite s) (not_refusalCause_iff_mayEncode (.inr hcode))
  case h_6 hcode => exact refusedExactly_of_answer (exec_xfer s) (not_refusalCause_iff_mayTransfer hcode)
  case h_7 hcode => exact refusedExactly_of_answer (exec_decodeCmd s) (not_refusalCause_iff_mayDecode hcode)
  case h_8 hcode => exact refusedExactly_of_answer (exec_check s) (not_refusalCause_iff_mayCheck hcode)
  case h_9 =>
    have hreserved : 8 ≤ (v.extractLsb' 0 4).toNat := by
      simp only [imp_false] at *
      omega
    exact ⟨fun _ => exec_cmdReserved _ s, fun h => absurd (.inl hreserved) h⟩

end Sys2Proof.Machine

namespace Sys2Proof.Machine

/-! ### The checksum that the host drives (R67, R73) -/

section

variable {s : State} {l rest : List Input} {v : Word} {b : Byte}

/-- A write to `CMD` runs the operation its value launches (R13). -/
theorem step_command (hi : s.inputs = .hostWrite 0x00 v :: l) : step s = exec (decodeCommand v) (s.setInputs l) :=
  (step_of_cons hi).trans (runInput_of_operation rfl _)

theorem step_writeArgData (hi : s.inputs = .hostWrite 0x03 v :: l) :
    step s = .next { s with argData := v, inputs := l } :=
  (step_of_cons hi).trans (runInput_of_plain rfl _)

/-- CRC_BYTE absorbs the byte that was written to `ARG_DATA` (R16, R73). -/
theorem step_crcByteCmd (hi : s.inputs = .hostWrite 0x00 0x0002#16 :: l) (hb : s.argData = b.setWidth 16) :
    step s = .next { s with crcacc := crcByte s.crcacc b, cmderr := false, inputs := l } := by
  have hoperand : (s.setInputs l).crcOperand = b := by
    simp [State.crcOperand, hb, BitVec.extractLsb'_setWidth_of_le]
  rw [step_command hi, show decodeCommand 0x0002#16 = .crcByteCmd from rfl, exec_crcByteCmd, hoperand]
  rfl

/-- What the host does for the byte `b` of `crc16(d)` (R67). -/
def absorbInputs (b : Byte) : List Input := [.hostWrite 0x03 (b.setWidth 16), .hostWrite 0x00 0x0002#16]

theorem run_absorb (hi : s.inputs = absorbInputs b ++ l) :
    Host.Core.run core 2 s =
      .next { s with crcacc := crcByte s.crcacc b, cmderr := false, argData := b.setWidth 16, inputs := l } :=
  (run_succ (step_writeArgData hi)).trans (run_succ (step_crcByteCmd rfl rfl))

/-- The bytes of `d` absorbed one after the other, whatever the accumulator held. -/
theorem run_absorbAll {d : List Byte} (hi : s.inputs = d.flatMap absorbInputs ++ rest) (hc : s.cmderr = false) :
    ∃ w : Word, Host.Core.run core (2 * d.length) s =
      .next { s with crcacc := crcFrom s.crcacc d, cmderr := false, argData := w, inputs := rest } := by
  induction d generalizing s with
  | nil =>
    subst hi
    exact ⟨s.argData, by rw [← hc]; rfl⟩
  | cons b d ih =>
    rw [List.flatMap_cons, List.append_assoc] at hi
    rw [List.length_cons, Nat.mul_succ, Nat.add_comm, run_add (run_absorb hi)]
    exact ih rfl rfl

end

/-- Settles O10: CRC_INIT, then an induction on the bytes. -/
theorem hostDrivenChecksumIsCrc16 : Obligations.HostDrivenChecksumIsCrc16 := by
  intro s d rest hi
  rw [run_succ ((step_command hi).trans (exec_crcInit _))]
  exact run_absorbAll rfl rfl

end Sys2Proof.Machine

namespace Sys2Proof.Machine

/-! ### The reception of a whole reply (R88, R98) -/

section

variable {s : State} {b : Byte} {f q : List Byte} {l rest : List Input}

/-- The state after the reply `f` has come in whole: it stands in the buffer `m` and is classified, the bytes `q` wait
(R88). -/
def State.received (s : State) (m : Memory) (f q : List Byte) (rest : List Input) : State :=
  { s with
    rxfifo := q, rxbuf := m, rxlen := s.rxexp, rxstate := .idle, res := decodeResults f, inputs := rest }

@[simp] theorem received_rxstate {m : Memory} : (s.received m f q l).rxstate = .idle := rfl

@[simp] theorem received_inputs {m : Memory} : (s.received m f q l).inputs = l := rfl

@[simp] theorem received_txlen {m : Memory} : (s.received m f q l).txlen = s.txlen := rfl

@[simp] theorem received_txbuf {m : Memory} : (s.received m f q l).txbuf = s.txbuf := rfl

@[simp] theorem received_res {m : Memory} : (s.received m f q l).res = decodeResults f := rfl

theorem step_receive (h : Inv s) (hrx : s.rxstate = .receiving) (hq : s.rxfifo = b :: q)
    (hi : s.inputs = .receive :: l) :
    step s = .next (((s.setInputs l).setFifo q).storeRx b).completeReception := by
  rw [step_of_cons hi, runInput_of_operation rfl]
  change execRxByte (s.setInputs l) = _
  simp [execRxByte, State.busy, hrx, hq, h.rxlen_lt hrx]

theorem completeReception_of_ne (h : s.rxlen ≠ s.rxexp) : s.completeReception = s := if_neg h

theorem completeReception_of_eq (h : s.rxlen = s.rxexp) :
    s.completeReception = s.received s.rxbuf s.rxBytes s.rxfifo s.inputs := by
  have hdone : (s.decodeFrame s.rxBytes).setRxState .idle =
      { s.received s.rxbuf s.rxBytes s.rxfifo s.inputs with rxlen := s.rxlen } := rfl
  rw [State.completeReception, if_pos h, hdone, h]
  rfl

/-- A byte after which more are missing. -/
theorem step_receive_more (h : Inv s) (hrx : s.rxstate = .receiving) (hq : s.rxfifo = b :: q)
    (hi : s.inputs = .receive :: l) (hmore : s.rxlen + 1 ≠ s.rxexp) :
    step s = .next (((s.setInputs l).setFifo q).storeRx b) := by
  rw [step_receive h hrx hq hi, completeReception_of_ne hmore]

/-- The byte that completes the reply. -/
theorem step_receive_last (h : Inv s) (hrx : s.rxstate = .receiving) (hq : s.rxfifo = b :: q)
    (hi : s.inputs = .receive :: l) (hlast : s.rxlen + 1 = s.rxexp) :
    step s = .next (s.received (s.storeRx b).rxbuf (s.storeRx b).rxBytes q l) := by
  rw [step_receive h hrx hq hi, completeReception_of_eq hlast]
  rfl

/-- As many turns of the receiver as bytes are missing, while they wait. -/
theorem run_reception (h : Inv s) (hrx : s.rxstate = .receiving) (hq : s.rxfifo = f ++ q)
    (hl : s.rxlen + f.length = s.rxexp) (hi : s.inputs = List.replicate f.length .receive ++ rest) :
    ∃ m, Host.Core.run core f.length s = .next (s.received m (s.rxBytes ++ f) q rest) ∧
      m.readBytes 0 s.rxexp = s.rxBytes ++ f := by
  induction f generalizing s with
  | nil => exact absurd hl (h.receiving hrx).1.ne
  | cons b f ih =>
    rw [List.length_cons] at hl hi ⊢
    rw [List.replicate_succ, List.cons_append] at hi
    have hheld : s.rxBytes ++ b :: f = (s.storeRx b).rxBytes ++ f := by
      rw [rxBytes_storeRx h.rxBuffer, List.append_assoc, List.singleton_append]
    rw [hheld]
    by_cases hlast : s.rxlen + 1 = s.rxexp
    · obtain rfl : f = [] := List.eq_nil_of_length_eq_zero (by omega)
      rw [run_succ (step_receive_last h hrx hq hi hlast), List.append_nil, ← hlast]
      exact ⟨(s.storeRx b).rxbuf, rfl, rfl⟩
    · rw [run_succ (step_receive_more h hrx hq hi hlast)]
      have hinv := ((h.setInputs (List.replicate f.length .receive ++ rest)).setFifo (f ++ q)).storeRx hrx hlast b
      exact ih hinv hrx rfl ((Nat.succ_add_eq_add_succ s.rxlen f.length).trans hl) rfl

/-! #### XFER, the reception, CHECK (R67, R85, R95) -/

theorem step_xfer (hidle : s.rxstate = .idle) (hl : s.txlen = 8) (hn : s.argData.toNat ≤ 256)
    (hi : s.inputs = .hostWrite 0x00 0x0005#16 :: l) : step s = .next (s.setInputs l).transfer.accept := by
  have hmay : (s.setInputs l).mayTransfer = true := mayTransfer_iff.mpr ⟨hidle, hl, hn⟩
  rw [step_command hi, show decodeCommand 0x0005#16 = .xfer from rfl, exec_xfer, if_pos hmay]

theorem step_check (hidle : s.rxstate = .idle) (hl : s.txlen = 8)
    (hnormal : s.res.result = .ok ∨ s.res.result = .writeAck) (hi : s.inputs = .hostWrite 0x00 0x0007#16 :: l) :
    step s = .next ((s.setInputs l).setResults
      { s.res with chk := if s.consistent then .pass else .violation }).accept := by
  have hmay : (s.setInputs l).mayCheck = true := mayCheck_iff.mpr ⟨hidle, hl, hnormal⟩
  rw [step_command hi, show decodeCommand 0x0007#16 = .check from rfl, exec_check, if_pos hmay]
  rfl

@[simp] theorem transfer_rxstate : s.transfer.rxstate = .receiving := rfl

@[simp] theorem transfer_rxlen : s.transfer.rxlen = 0 := rfl

@[simp] theorem transfer_rxexp : s.transfer.rxexp = s.argData.toNat + 4 := rfl

@[simp] theorem transfer_txlen : s.transfer.txlen = s.txlen := rfl

@[simp] theorem transfer_txbuf : s.transfer.txbuf = s.txbuf := rfl

@[simp] theorem transfer_rxfifo : s.transfer.rxfifo = s.rxfifo := rfl

@[simp] theorem transfer_inputs : s.transfer.inputs = s.inputs := rfl

/-- No byte of the reply is held when the request has just gone out. -/
theorem rxBytes_transfer : s.transfer.accept.rxBytes = [] := rfl

/-- A reception says nothing of the inputs before it. -/
theorem received_transfer_setInputs {m : Memory} :
    (s.setInputs l).transfer.accept.received m f q rest = s.transfer.accept.received m f q rest := rfl

/-- XFER, and the reception of a reply of the length asked for. -/
theorem run_xfer (h : Inv s) (hidle : s.rxstate = .idle) (hl : s.txlen = 8) (hcap : f.length ≤ Config.rxCap)
    (hexp : s.argData.toNat + 4 = f.length) (hq : s.rxfifo = f ++ q)
    (hi : s.inputs = .hostWrite 0x00 0x0005#16 :: (List.replicate f.length .receive ++ rest)) :
    ∃ m, Host.Core.run core (f.length + 1) s = .next (s.transfer.accept.received m f q rest) ∧
      m.readBytes 0 f.length = f := by
  have hxfer := step_xfer hidle hl (Nat.le_of_add_le_add_right (hexp.trans_le hcap)) hi
  obtain ⟨m, hrun, hm⟩ := run_reception (f := f) (q := q) (rest := rest) (h.step hxfer) (by simp) (by simpa using hq)
    (by simp [hexp]) (by simp)
  rw [rxBytes_transfer, List.nil_append] at hrun hm
  rw [received_transfer_setInputs] at hrun
  exact ⟨m, (run_succ hxfer).trans hrun, by simpa [hexp] using hm⟩

/-- CHECK compares the recorded reply with the request held, and nothing else (R95). -/
theorem consistent_congr {t : State} (htx : s.txbuf = t.txbuf) (hres : s.res = t.res) :
    s.consistent = t.consistent := by
  simp only [State.consistent, State.reqFunction, State.reqAddr, State.reqData, htx, hres]

/-- What a transaction leaves whose reply is `f`, received in the buffer `m`, and which CHECK has judged. -/
def State.judged (s : State) (m : Memory) (f q : List Byte) (rest : List Input) : State :=
  ((s.transfer.received m f q rest).setResults
    { decodeResults f with
      chk := if (s.setResults (decodeResults f)).consistent then .pass else .violation }).accept

/-- CHECK after the reception of a normal reply. -/
theorem step_check_received {m : Memory} (hl : s.txlen = 8)
    (hnormal : (decodeResults f).result = .ok ∨ (decodeResults f).result = .writeAck) :
    step (s.transfer.accept.received m f q (.hostWrite 0x00 0x0007#16 :: rest)) = .next (s.judged m f q rest) := by
  have hconsistent : (s.transfer.accept.received m f q (.hostWrite 0x00 0x0007#16 :: rest)).consistent =
      (s.setResults (decodeResults f)).consistent := consistent_congr (by simp) (by simp)
  rw [step_check (l := rest) (by simp) (by simpa using hl) (by simpa using hnormal) (by simp), hconsistent]
  rfl

theorem run_one {t : State} (h : step s = .next t) : Host.Core.run core 1 s = .next t := run_succ h

/-- XFER, the reception of a normal reply `f` of the length asked for, and CHECK. -/
theorem run_transaction (h : Inv s) (hidle : s.rxstate = .idle) (hl : s.txlen = 8) (hcap : f.length ≤ Config.rxCap)
    (hexp : s.argData.toNat + 4 = f.length)
    (hnormal : (decodeResults f).result = .ok ∨ (decodeResults f).result = .writeAck) (hq : s.rxfifo = f ++ q)
    (hi : s.inputs =
      .hostWrite 0x00 0x0005#16 :: (List.replicate f.length .receive ++ .hostWrite 0x00 0x0007#16 :: rest)) :
    ∃ m, Host.Core.run core (f.length + 2) s = .next (s.judged m f q rest) ∧ m.readBytes 0 f.length = f := by
  obtain ⟨m, hrun, hm⟩ := run_xfer h hidle hl hcap hexp hq hi
  exact ⟨m, (run_add hrun).trans (run_one (step_check_received hl hnormal)), hm⟩

end

end Sys2Proof.Machine

namespace Sys2Proof.Machine

/-! ### What `decode` makes of a correct reply (R54, R55, R91) -/

section

variable {s : State} {dev : Byte} {payload f : List Byte} {reg val : Word}

/-- The checks on the checksum pass for a frame closed with its own (R91 step 2). -/
theorem classify_sealed {head : List Byte} (h : 2 ≤ head.length) :
    classify (sealed head) = classifyFrame (sealed head) := by
  have hcrc : crcReceived (sealed head) = crcComputed (sealed head) := by
    have hvalid := checksumValid_sealed head
    rw [checksumValid, Bool.and_eq_true, beq_iff_eq] at hvalid
    exact hvalid.2
  have hlen := length_sealed head
  rw [classify, if_neg (by omega), if_neg (not_not.mpr hcrc), if_neg (by omega)]

theorem classify_readReply (h : payload.length ≤ 255) :
    classify (sealed (readReplyHead dev payload)) = .ok (BitVec.ofNat 8 payload.length) := by
  have hfn : byteAt (sealed (readReplyHead dev payload)) 1 = Config.fcRead := rfl
  have hlen : byteAt (sealed (readReplyHead dev payload)) 2 = BitVec.ofNat 8 payload.length := rfl
  have hnat : (BitVec.ofNat 8 payload.length).toNat = payload.length := Nat.mod_eq_of_lt (by omega)
  rw [classify_sealed (by simp), classifyFrame, hfn, hlen, hnat]
  simp [Config.fcRead]

theorem classify_writeReply : classify (sealed (fieldsHead dev Config.fcWrite reg val)) = .writeAck reg val := by
  have hfn : byteAt (sealed (fieldsHead dev Config.fcWrite reg val)) 1 = Config.fcWrite := rfl
  have hfields : classifyFrame (sealed (fieldsHead dev Config.fcWrite reg val)) =
      .writeAck (u16be (reg.extractLsb' 8 8) (reg.extractLsb' 0 8))
        (u16be (val.extractLsb' 8 8) (val.extractLsb' 0 8)) := by
    rw [classifyFrame, hfn]
    rfl
  rw [classify_sealed (by simp), hfields, u16be_be16, u16be_be16]

theorem decodeResults_ok {len : Byte} (h : classify f = .ok len) :
    (decodeResults f).result = .ok ∧ (decodeResults f).paylen = len := by
  rw [decodeResults, h]
  exact ⟨rfl, rfl⟩

theorem decodeResults_writeAck (h : classify f = .writeAck reg val) :
    (decodeResults f).result = .writeAck ∧ (decodeResults f).ackaddr = reg ∧ (decodeResults f).ackval = val := by
  rw [decodeResults, h]
  exact ⟨rfl, rfl, rfl⟩

/-- CHECK on an `Ok` reply (R95). -/
theorem consistent_ok_iff {r : Results} (h : r.result = .ok) :
    (s.setResults r).consistent = true ↔ s.reqFunction = Config.fcRead ∧ r.paylen.toNat = 2 * s.reqData.toNat := by
  simp [State.consistent, State.reqFunction, State.reqData, h]

/-- CHECK on a `WriteAck` reply (R95). -/
theorem consistent_writeAck_iff {r : Results} (h : r.result = .writeAck) :
    (s.setResults r).consistent = true ↔
      s.reqFunction = Config.fcWrite ∧ r.ackaddr = s.reqAddr ∧ r.ackval = s.reqData := by
  simp [State.consistent, State.reqFunction, State.reqAddr, State.reqData, h, and_assoc]

/-- A read in two parts. -/
theorem Memory.readBytes_add {m : Memory} {i j k : Nat} :
    m.readBytes i (j + k) = m.readBytes i j ++ m.readBytes (i + j) k := by
  induction k with
  | zero => exact (List.append_nil _).symm
  | succ k ih =>
    rw [← Nat.add_assoc, Memory.readBytes_succ, ih, Memory.readBytes_succ, List.append_assoc, Nat.add_assoc]

/-- The bytes in the middle of what a buffer holds, by their place. -/
theorem Memory.readBytes_middle {m : Memory} {a p c : List Byte}
    (h : m.readBytes 0 (a ++ p ++ c).length = a ++ p ++ c) : m.readBytes a.length p.length = p := by
  rw [List.length_append, List.length_append, Memory.readBytes_add, Memory.readBytes_add, Nat.zero_add] at h
  have hfront := (List.append_inj h (by simp)).1
  exact (List.append_inj hfront (by simp)).2

/-- The payload of a read reply held stands behind its three header bytes (R54). -/
theorem readBytes_readReply {m : Memory}
    (h : m.readBytes 0 (sealed (readReplyHead dev payload)).length = sealed (readReplyHead dev payload)) :
    m.readBytes 3 payload.length = payload :=
  Memory.readBytes_middle (a := [dev, Config.fcRead, BitVec.ofNat 8 payload.length]) h

end

/-- Settles O35: the reply is `OK` with a payload of `2n` bytes, which CHECK finds to be what a request of `n` registers
asks for. -/
theorem matchedReadTransactionPasses : Obligations.MatchedReadTransactionPasses := by
  intro s n dev payload q rest hinv hidle hn hl hfn hdata harg hpayload hq hi
  have hflen : (sealed (readReplyHead dev payload)).length = 2 * n + 5 := by simp [hpayload]
  have hexp : s.argData.toNat + 4 = (sealed (readReplyHead dev payload)).length := by
    rw [harg, hflen, BitVec.toNat_ofNat]
    omega
  have hcap : (sealed (readReplyHead dev payload)).length ≤ Config.rxCap := by
    rw [hflen, Config.rxCap]
    omega
  obtain ⟨hok, hpaylen⟩ := decodeResults_ok (classify_readReply (dev := dev) (payload := payload) (by omega))
  have hlen : (decodeResults (sealed (readReplyHead dev payload))).paylen.toNat = 2 * n := by
    rw [hpaylen, hpayload, BitVec.toNat_ofNat]
    omega
  have hcount : s.reqData.toNat = n := by
    rw [hdata, BitVec.toNat_ofNat]
    omega
  have hpass := (consistent_ok_iff hok).mpr ⟨hfn, by rw [hlen, hcount]⟩
  obtain ⟨m, hrun, hm⟩ := run_transaction hinv hidle hl hcap hexp (.inl hok) hq (hflen.symm ▸ hi)
  rw [hflen] at hrun
  have hheld : m.readBytes 3 (2 * n) = payload := hpayload ▸ readBytes_readReply hm
  exact ⟨_, hrun, rfl, rfl, hok, if_pos hpass, hlen, hheld, rfl, rfl, rfl⟩

/-- Settles O36: the reply is `WRITE_ACK` with the fields of the acknowledge, which CHECK compares with the request. -/
theorem writeTransactionPassesExactlyOnTheRightEcho : Obligations.WriteTransactionPassesExactlyOnTheRightEcho := by
  intro s dev reg val q rest hinv hidle hl hfn harg hq hi
  change s.rxfifo = sealed (fieldsHead dev Config.fcWrite reg val) ++ q at hq
  obtain ⟨hack, haddr, hval⟩ := decodeResults_writeAck (classify_writeReply (dev := dev) (reg := reg) (val := val))
  obtain ⟨m, hrun, _⟩ :=
    run_transaction hinv hidle hl (by simp [Config.rxCap]) (by simp [harg]) (.inr hack) hq hi
  have hecho : (s.setResults (decodeResults (sealed (fieldsHead dev Config.fcWrite reg val)))).consistent = true ↔
      reg = s.reqAddr ∧ val = s.reqData := by
    rw [consistent_writeAck_iff hack, haddr, hval]
    exact and_iff_right hfn
  exact ⟨_, hrun, hack, haddr, hval, if_congr hecho rfl rfl, rfl, rfl, rfl⟩

end Sys2Proof.Machine

namespace Sys2Proof.Machine

/-! ### One shift round (R69) -/

/-- What one round XORs into the shifted accumulator, by the bit tested (R69). -/
def feedback (x : Bool) : Word := if x then Config.crcPoly else 0#16

theorem feedback_xor (x y : Bool) : feedback (x.xor y) = feedback x ^^^ feedback y := by
  cases x <;> cases y <;> decide

theorem crcRound_eq_xor_feedback (a : Word) : crcRound a = (a >>> 1) ^^^ feedback (a.getLsbD 0) := by
  rw [crcRound, feedback]
  split <;> simp

/-- The logical shift leaves bit 15 clear, and the polynomial has its bit 15 set (R69). -/
theorem crcRound_getLsbD_15 (a : Word) : (crcRound a).getLsbD 15 = a.getLsbD 0 := by
  have hfeedback : (feedback (a.getLsbD 0)).getLsbD 15 = a.getLsbD 0 := by
    cases a.getLsbD 0 <;> decide
  rw [crcRound_eq_xor_feedback, BitVec.getLsbD_xor, hfeedback]
  simp

/-- A round over a clear bit 0 is the shift alone. -/
theorem crcRound_of_even {a : Word} (h : a.getLsbD 0 = false) : crcRound a = a >>> 1 :=
  if_neg (ne_true_of_eq_false h)

/-- The rounds are linear over XOR. -/
theorem crcRound_xor (a c : Word) : crcRound (a ^^^ c) = crcRound a ^^^ crcRound c := by
  simp only [crcRound_eq_xor_feedback, BitVec.getLsbD_xor, feedback_xor, BitVec.ushiftRight_xor_distrib]
  ac_rfl

/-- A round loses nothing: its result's bit 15 tells the old bit 0, and so whether the polynomial was XORed in. -/
theorem crcRound_injective : Function.Injective crcRound := by
  intro a c h
  have hlow : a.getLsbD 0 = c.getLsbD 0 := by rw [← crcRound_getLsbD_15, h, crcRound_getLsbD_15]
  have hshift : a >>> 1 = c >>> 1 := by
    rw [crcRound_eq_xor_feedback, crcRound_eq_xor_feedback, hlow] at h
    exact (BitVec.xor_left_inj _).mp h
  apply BitVec.eq_of_getLsbD_eq
  intro i _
  cases i with
  | zero => exact hlow
  | succ j => simpa [Nat.add_comm] using congrArg (·.getLsbD j) hshift

/-! ### Rounds in a row, and a byte absorbed (R70) -/

theorem crcRounds_eq_iterate (k : Nat) (a : Word) : crcRounds k a = crcRound^[k] a := by
  induction k generalizing a with
  | zero => rfl
  | succ k ih => exact ih _

theorem crcRounds_injective (k : Nat) : Function.Injective (crcRounds k) := by
  rw [funext (crcRounds_eq_iterate k)]
  exact crcRound_injective.iterate k

/-- The last round split off. -/
theorem crcRounds_succ_last (k : Nat) (a : Word) : crcRounds (k + 1) a = crcRound (crcRounds k a) := by
  simp only [crcRounds_eq_iterate, Function.iterate_succ_apply']

theorem crcRounds_add (j k : Nat) (a : Word) : crcRounds (j + k) a = crcRounds j (crcRounds k a) := by
  simp only [crcRounds_eq_iterate, Function.iterate_add_apply]

theorem crcRounds_xor (k : Nat) (a c : Word) : crcRounds k (a ^^^ c) = crcRounds k a ^^^ crcRounds k c := by
  induction k with
  | zero => rfl
  | succ k ih => simp only [crcRounds_succ_last, ih, crcRound_xor]

@[simp] theorem crcRounds_zeroWord (k : Nat) : crcRounds k 0#16 = 0#16 := by
  induction k with
  | zero => rfl
  | succ k ih => exact ih

/-- Up to eight rounds shift a byte down from above as many clear bits. -/
theorem crcRounds_shiftLeft {k : Nat} (b : Byte) (hk : k ≤ 8) : crcRounds k (b.setWidth 16 <<< k) = b.setWidth 16 := by
  induction k with
  | zero => simp
  | succ k ih =>
    have hshift : (b.setWidth 16 <<< (k + 1)) >>> 1 = b.setWidth 16 <<< k := by
      apply BitVec.eq_of_getLsbD_eq
      intro i hi
      by_cases hbit : 8 ≤ i - k
      · simp [hi, BitVec.getLsbD_of_ge b (i - k) hbit, show 1 + i - (k + 1) = i - k by omega]
      · simp [hi, show 1 + i < 16 by omega, show 1 + i - (k + 1) = i - k by omega, show 1 + i < k + 1 ↔ i < k by omega]
    rw [crcRounds_succ, crcRound_of_even (by simp), hshift, ih (by omega)]

theorem crcByte_left_injective (b : Byte) : Function.Injective (crcByte · b) := fun _ _ h =>
  (BitVec.xor_left_inj _).mp (crcRounds_injective 8 h)

theorem crcByte_right_injective (a : Word) : Function.Injective (crcByte a) := fun b c h => by
  have hwide : b.setWidth 16 = c.setWidth 16 := (BitVec.xor_right_inj _).mp (crcRounds_injective 8 h)
  simpa using congrArg (BitVec.setWidth 8) hwide

/-! ### The bit-serial form (R75) -/

/-- One round of the bit-serial form: bit `i` of the byte joins the test (R75). -/
def serialRound (b : Byte) (a : Word) (i : Nat) : Word := (a >>> 1) ^^^ feedback ((a.getLsbD 0).xor (b.getLsbD i))

theorem crcBitSerial_eq_foldl (a : Word) (b : Byte) : crcBitSerial a b = (List.range 8).foldl (serialRound b) a := rfl

/-- Bits of the byte that wait in the accumulator are shifted down with it, and the lowest joins the test. -/
theorem crcRound_xor_shifted (a : Word) (b : Byte) (i : Nat) :
    crcRound (a ^^^ (b >>> i).setWidth 16) = serialRound b a i ^^^ (b >>> (i + 1)).setWidth 16 := by
  have hshift : (b >>> i).setWidth 16 >>> 1 = (b >>> (i + 1)).setWidth 16 := by
    simp only [BitVec.setWidth_ushiftRight (show 8 ≤ 16 by decide), BitVec.shiftRight_add]
  have htest : (a ^^^ (b >>> i).setWidth 16).getLsbD 0 = (a.getLsbD 0).xor (b.getLsbD i) := by
    rw [BitVec.getLsbD_xor, BitVec.getLsbD_setWidth, BitVec.getLsbD_ushiftRight]; rfl
  rw [crcRound_eq_xor_feedback, BitVec.ushiftRight_xor_distrib, hshift, htest, serialRound]
  ac_rfl

/-- After `k` rounds the two forms differ by the bits of the byte not yet fed. -/
theorem crcRounds_eq_serial (a : Word) (b : Byte) (k : Nat) :
    crcRounds k (a ^^^ b.setWidth 16) = (List.range k).foldl (serialRound b) a ^^^ (b >>> k).setWidth 16 := by
  induction k with
  | zero => simp
  | succ k ih => rw [crcRounds_succ_last, ih, crcRound_xor_shifted, List.range_succ, List.foldl_append]; rfl

/-! ### Sequences (R71, R76, R77) -/

section

variable {f s : List Byte} {i k : Nat}

theorem crcFrom_left_injective (s : List Byte) : Function.Injective (crcFrom · s) := by
  induction s with
  | nil => exact fun _ _ h => h
  | cons b s ih => exact ih.comp (crcByte_left_injective b)

/-- Two bytes absorbed are sixteen rounds over their word, low byte first. -/
theorem crcFrom_pair (a : Word) (x y : Byte) : crcFrom a [x, y] = crcRounds 16 (a ^^^ u16le x y) := by
  have hword : u16le x y = x.setWidth 16 ^^^ y.setWidth 16 <<< 8 := by
    apply BitVec.eq_of_getLsbD_eq
    intro i hi
    rw [u16le, BitVec.getLsbD_append]
    by_cases hlow : i < 8
    · simp [hlow, hi]
    · simp [hlow, hi, BitVec.getLsbD_of_ge x i (by omega)]
  calc crcFrom a [x, y]
      = crcRounds 8 (crcRounds 8 (a ^^^ x.setWidth 16) ^^^ y.setWidth 16) := rfl
    _ = crcRounds 8 (crcRounds 8 (a ^^^ x.setWidth 16) ^^^ crcRounds 8 (y.setWidth 16 <<< 8)) := by
        rw [crcRounds_shiftLeft y (Nat.le_refl 8)]
    _ = crcRounds 8 (crcRounds 8 (a ^^^ u16le x y)) := by rw [← crcRounds_xor, hword, BitVec.xor_assoc]
    _ = crcRounds 16 (a ^^^ u16le x y) := (crcRounds_add 8 8 _).symm

/-- Two bytes take the accumulator to 0 exactly where they are its own, low byte first (R76). -/
theorem crcFrom_pair_eq_zero_iff (a : Word) (x y : Byte) : crcFrom a [x, y] = 0#16 ↔ u16le x y = a := by
  rw [crcFrom_pair, ← crcRounds_zeroWord 16, (crcRounds_injective 16).eq_iff, BitVec.xor_eq_zero_iff, eq_comm]

/-- The residue of a frame whose checksum is right (R76). -/
theorem crc16_withCrc_eq_zero_iff (d : List Byte) (c : Word) : crc16 (withCrc d c) = 0#16 ↔ c = crc16 d := by
  rw [withCrc, crc16_append, le16, crcFrom_pair_eq_zero_iff, u16le_le16]

theorem crc16_sealed (d : List Byte) : crc16 (sealed d) = 0#16 := (crc16_withCrc_eq_zero_iff d _).mpr rfl

/-- The validator's test on the checksum is a residue of 0 (R76). -/
theorem crcReceived_eq_crcComputed_iff (h : 2 ≤ f.length) : crcReceived f = crcComputed f ↔ crc16 f = 0#16 := by
  have hresidue := crc16_withCrc_eq_zero_iff (f.take (f.length - 2)) (crcField f)
  rw [withCrc_crcField h] at hresidue
  exact hresidue.symm

theorem classify_of_crc16_ne_zero (hl : 2 ≤ f.length) (h : crc16 f ≠ 0#16) : classify f = .checksumMismatch := by
  rw [classify, if_neg (by omega), if_pos (mt (crcReceived_eq_crcComputed_iff hl).mp h)]

/-- One byte changed changes the checksum: all later bytes are absorbed injectively (R77). -/
theorem crc16_set_ne {c : Byte} (hi : i < s.length) (hc : c ≠ s[i]) : crc16 (s.set i c) ≠ crc16 s := by
  have hset (b : Byte) : crc16 (s.set i b) = crcFrom (crcByte (crc16 (s.take i)) b) (s.drop (i + 1)) := by
    rw [List.set_eq_take_append_cons_drop, if_pos hi, crc16_append, crcFrom_cons]
  intro h
  rw [← congrArg crc16 (List.set_getElem_self hi), hset, hset] at h
  exact hc (crcByte_right_injective _ (crcFrom_left_injective _ h))

@[simp] theorem length_flipBit (f : List Byte) (i k : Nat) : (flipBit f i k).length = f.length := List.length_set

theorem crc16_flipBit_ne (hi : i < s.length) (hk : k < 8) : crc16 (flipBit s i k) ≠ crc16 s := by
  have hbit : 1#8 <<< k ≠ 0#8 := by interval_cases k <;> decide
  apply crc16_set_ne hi
  rw [byteAt, List.getD_eq_getElem _ _ hi]
  exact fun h => hbit ((BitVec.xor_right_inj _).mp (h.trans BitVec.xor_zero.symm))

end

/-- Settles O3: when all eight bits have been fed, none is left by which the two forms differ. -/
theorem crcByteEqualsBitSerialForm : Obligations.CrcByteEqualsBitSerialForm := by
  intro a b
  have hnone : (b >>> 8).setWidth 16 = 0#16 := by rw [BitVec.ushiftRight_eq_zero (by decide), BitVec.setWidth_zero]
  rw [crcByte, crcRounds_eq_serial, hnone, BitVec.xor_zero, crcBitSerial_eq_foldl]

/-- Settles O4: the two checksum bytes cancel the accumulator; the empty sequence shows nothing of the byte order, the byte
0x00 does. -/
theorem checksumResidueIsZero : Obligations.ChecksumResidueIsZero := by
  refine ⟨crc16_sealed, fun d x y h => ?_, fun f => crcReceived_eq_crcComputed_iff, [0x00#8], by decide +kernel⟩
  rw [crc16_append, crcFrom_pair_eq_zero_iff] at h
  rw [← h, le16_u16le]

/-- Settles O5: an injection of a finite set into itself is a bijection. -/
theorem crcByteIsBijective : Obligations.CrcByteIsBijective := fun b =>
  Finite.injective_iff_bijective.mp (crcByte_left_injective b)

/-- Settles O6: a flip leaves the residue 0 of a valid frame; two valid frames of one length share theirs. -/
theorem singleBitFlipIsAlwaysDetected : Obligations.SingleBitFlipIsAlwaysDetected := by
  refine ⟨fun _ _ _ => crc16_flipBit_ne, fun f i k hl hcrc hi hk => ?_,
    sealed [0x00#8], sealed [0x01#8], rfl, by decide, ?_⟩
  · rw [crcReceived_eq_crcComputed_iff hl] at hcrc
    exact classify_of_crc16_ne_zero (by simpa using hl) (hcrc ▸ crc16_flipBit_ne hi hk)
  · rw [crc16_sealed, crc16_sealed]

/-- Settles O1, with the five corner cases of R69. -/
theorem crcRoundTestsTheLowBitThenShifts : Obligations.CrcRoundTestsTheLowBitThenShifts :=
  ⟨fun _ => rfl, crcRound_getLsbD_15, by decide⟩

/-- Settles O2: the loop over `s ++ t` is the loop over `t` after that over `s`. -/
theorem crc16AbsorbsBytesInOrder : Obligations.Crc16AbsorbsBytesInOrder :=
  ⟨rfl, fun s b => crc16_append s [b], fun _ _ => rfl, crc16_append, by decide +kernel⟩

/-- Settles O8: CRC_INIT is a command without a precondition. -/
theorem crcInitSetsTheAccumulator : Obligations.CrcInitSetsTheAccumulator :=
  ⟨fun _ h => decodeCommand_congr (w := 0x0001#16) h, exec_crcInit⟩

/-- Settles O9: CRC_BYTE is a command without a precondition. -/
theorem crcByteCommandAbsorbsTheLowByte : Obligations.CrcByteCommandAbsorbsTheLowByte :=
  ⟨fun _ h => decodeCommand_congr (w := 0x0002#16) h, exec_crcByteCmd⟩

end Sys2Proof.Machine

namespace Sys2Proof.Machine

/-! ### The framer (R79, R81 to R83) -/

section

variable {s t : State} {i : Instr} {dev fn : Byte} {a v : Word} {m : Memory}

/-- The request stands in `TXBUF` whole (R79, R81). -/
theorem txBytes_buildRequest (h : s.txbuf.wf Config.txCap = true) :
    (s.buildRequest dev fn a v).txBytes = sealed (fieldsHead dev fn a v) := txBytes_setRequest h rfl

theorem txbuf_read_buildRequest_beyond {k : Nat} (hk : 8 ≤ k) :
    (s.buildRequest dev fn a v).txbuf.read k = s.txbuf.read k := Memory.read_writeBytes_other (.inr hk)

/-- The framer writes `TXBUF`, `TXLEN` and `CMDERR` alone. -/
theorem buildRequest_accept_eq :
    (s.buildRequest dev fn a v).accept =
      { s with txbuf := (s.buildRequest dev fn a v).txbuf, txlen := 8, cmderr := false } := rfl

theorem exec_encRead_of_idle (h : s.rxstate = .idle) :
    exec .encRead s = .next (s.buildRequest s.argDev Config.fcRead s.argAddr s.argData).accept := by
  rw [exec_encRead, if_pos (mayEncode_iff.mpr h)]

theorem exec_encWrite_of_idle (h : s.rxstate = .idle) :
    exec .encWrite s = .next (s.buildRequest s.argDev Config.fcWrite s.argAddr s.argData).accept := by
  rw [exec_encWrite, if_pos (mayEncode_iff.mpr h)]

theorem exec_encRead_of_receiving (h : s.rxstate = .receiving) : exec .encRead s = .next s.refuse := by
  simp [exec_encRead, mayEncode_iff, h]

theorem exec_encWrite_of_receiving (h : s.rxstate = .receiving) : exec .encWrite s = .next s.refuse := by
  simp [exec_encWrite, mayEncode_iff, h]

/-- What a command does that the framer answers in `IDLE` with function code `fn`. -/
theorem exists_built_of_exec (h : Inv s)
    (hexec : exec i s = .next (s.buildRequest s.argDev fn s.argAddr s.argData).accept) :
    ∃ t : State, exec i s = .next t ∧ t = { s with txbuf := t.txbuf, txlen := 8, cmderr := false } ∧
      t.txBytes = sealed (fieldsHead s.argDev fn s.argAddr s.argData) ∧
      ∀ k, 8 ≤ k → t.txbuf.read k = s.txbuf.read k :=
  ⟨_, hexec, buildRequest_accept_eq, txBytes_buildRequest h.txBuffer, fun _ => txbuf_read_buildRequest_beyond⟩

/-- The two forms of the frame invariant of R82. -/
theorem checksum_eq_iff_residue_eq_zero :
    u16le (m.read 6) (m.read 7) = crc16 (m.readBytes 0 6) ↔ crc16 (m.readBytes 0 8) = 0#16 := by
  rw [Memory.readBytes_add (j := 6) (k := 2), crc16_append]
  exact (crcFrom_pair_eq_zero_iff _ _ _).symm

/-- A request built has residue 0. -/
theorem residue_buildRequest (h : s.txbuf.wf Config.txCap = true) :
    crc16 ((s.buildRequest dev fn a v).txbuf.readBytes 0 8) = 0#16 :=
  (congrArg crc16 (txBytes_buildRequest h)).trans (crc16_sealed _)

/-- A read request taken for a read reply: its 8 bytes hold a payload of 3, and the high byte of its start address stands
where the reply has `byte_len` (R82). -/
theorem classify_readRequest :
    classify (sealed (fieldsHead dev Config.fcRead a v)) =
      if a.extractLsb' 8 8 = 3#8 then .ok 3#8
      else if (a.extractLsb' 8 8).toNat < 3 then .unexpected else .truncated := by
  have hfn : byteAt (sealed (fieldsHead dev Config.fcRead a v)) 1 = Config.fcRead := rfl
  have hstart : byteAt (sealed (fieldsHead dev Config.fcRead a v)) 2 = a.extractLsb' 8 8 := rfl
  have hlen : (sealed (fieldsHead dev Config.fcRead a v)).length = 8 := rfl
  rw [classify_sealed (by simp), classifyFrame, hfn, hstart, hlen, if_neg (by decide), if_pos rfl, if_neg (by decide)]
  generalize a.extractLsb' 8 8 = n
  by_cases hn : n = 3#8
  · subst hn
    rfl
  · have hne : n.toNat ≠ 3 := fun h => hn (BitVec.eq_of_toNat_eq h)
    rw [if_neg hn]
    by_cases hlt : n.toNat < 3
    · rw [if_neg (by omega), if_pos hlt, if_pos hlt]
    · rw [if_pos (by omega), if_neg hlt]

end

/-- Settles O19: the framer's answer with function code 0x03. -/
theorem encReadBuildsTheReadRequest : Obligations.EncReadBuildsTheReadRequest :=
  ⟨fun _ h => decodeCommand_congr (w := 0x0003#16) h, fun _ hinv =>
    ⟨fun hidle => exists_built_of_exec hinv (exec_encRead_of_idle hidle), exec_encRead_of_receiving⟩⟩

/-- Settles O20: the framer's answer with function code 0x06. -/
theorem encWriteBuildsTheWriteRequest : Obligations.EncWriteBuildsTheWriteRequest :=
  ⟨fun _ h => decodeCommand_congr (w := 0x0004#16) h, fun _ hinv =>
    ⟨fun hidle => exists_built_of_exec hinv (exec_encWrite_of_idle hidle), exec_encWrite_of_receiving⟩⟩

/-- Settles O21: the frame built is closed with its own checksum, and `decode` reads a write request as the reply of the same
bytes. -/
theorem builtRequestsSatisfyTheFrameInvariant : Obligations.BuiltRequestsSatisfyTheFrameInvariant := by
  refine ⟨fun i s t hi hinv hidle h => ?_, fun s t hinv hidle h => ?_, fun s t hinv hidle h => ?_⟩
  · rw [checksum_eq_iff_residue_eq_zero, and_self]
    obtain rfl | rfl := hi
    · rw [exec_encRead_of_idle hidle] at h
      cases h
      exact residue_buildRequest hinv.txBuffer
    · rw [exec_encWrite_of_idle hidle] at h
      cases h
      exact residue_buildRequest hinv.txBuffer
  · rw [exec_encWrite_of_idle hidle] at h
    cases h
    exact (congrArg classify (txBytes_buildRequest hinv.txBuffer)).trans classify_writeReply
  · rw [exec_encRead_of_idle hidle] at h
    cases h
    exact (congrArg classify (txBytes_buildRequest hinv.txBuffer)).trans classify_readRequest

/-- Settles O12: NOP is a command without a precondition and without an effect of its own. -/
theorem nopOnlyClearsCmderr : Obligations.NopOnlyClearsCmderr :=
  ⟨fun _ h => decodeCommand_congr (w := 0x0000#16) h, exec_nop⟩

/-! ### What enters and leaves the link (R38 to R40, R84, R99) -/

section

variable {s t w w' : State} {e : Input}

/-- Only XFER sends, and what it sends is the request held. -/
theorem WireStep.txstream_cases (h : WireStep w e w') :
    w'.txstream = w.txstream ∨
      (e.Launches 5#4 ∧ w.rxstate = .idle ∧ w.txlen = 8 ∧ w'.txstream = w.txstream ++ w.txbuf.readBytes 0 8) := by
  cases h with
  | transfer v _ he hcode hidle hl => exact .inr ⟨⟨v, he, hcode⟩, hidle, hl, by rw [State.txBytes, hl]⟩
  | send | flush | reset | request | store | complete | timeOut | decode | check => exact .inl rfl

/-- In `IDLE`, where the device sends nothing, only a flush takes a byte from the queue. -/
theorem WireStep.rxfifo_of_idle (h : WireStep w e w') (hidle : w.rxstate = .idle) (hsent : e.sent = []) :
    w'.rxfifo = w.rxfifo ∨ (e = .linkFlush ∧ w'.rxfifo = []) := by
  cases h with
  | send =>
    rw [hsent]
    exact .inl (List.append_nil _)
  | flush he => exact .inr ⟨he, rfl⟩
  | reset | request | transfer | decode | check => exact .inl rfl
  | store _ _ _ hrx | complete _ _ _ hrx | timeOut _ hrx => cases hidle.symm.trans hrx

/-- An input in which the device sends bytes does nothing else, whether or not they are a frame (R39). -/
theorem runInput_of_sent (h : e.sent ≠ []) (s : State) : runInput e s = .next (s.deviceSend e.sent) := by
  cases e with
  | deviceSend b => rfl
  | frame dir f =>
    cases dir with
    | toDevice => exact absurd rfl h
    | toBlock =>
      cases hf : decodeReply f with
      | ok i => exact (runInput_of_operation (by rw [Input.operation, hf]; rfl) s).trans (exec_of_decodeReply hf s)
      | error _ => exact runInput_of_plain (by rw [Input.operation, hf]; rfl) s
  | hostWrite | hostRead | receive | linkTimeout | linkFlush | reset => exact absurd rfl h

theorem rxfifo_of_step_of_sent (h : step s = .next t) (hsent : s.nextInput.sent ≠ []) :
    t.rxfifo = s.rxfifo ++ s.nextInput.sent := by
  cases hi : s.inputs with
  | nil =>
    rw [State.nextInput, hi] at hsent
    exact absurd rfl hsent
  | cons e l =>
    rw [nextInput_of_cons hi] at hsent ⊢
    rw [step_of_cons hi, runInput_of_sent hsent] at h
    cases h
    rfl

theorem rxfifo_of_step_of_idle (h : step s = .next t) (hidle : s.rxstate = .idle) :
    t.rxfifo = s.rxfifo ++ s.nextInput.sent ∨ (s.nextInput = .linkFlush ∧ t.rxfifo = []) := by
  by_cases hsent : s.nextInput.sent = []
  · rw [hsent, List.append_nil]
    exact (step_wireStep h).rxfifo_of_idle hidle hsent
  · exact .inl (rxfifo_of_step_of_sent h hsent)

end

/-- Settles O27: of all that a step can do on the wire side only XFER sends, and only a flush or the receiver, which is at rest
in `IDLE`, takes from the queue. -/
theorem onlyXferSendsAndIdlePullsNothing : Obligations.OnlyXferSendsAndIdlePullsNothing := fun _ _ h =>
  ⟨(step_wireStep h).txstream_cases, rxfifo_of_step_of_idle h⟩

end Sys2Proof.Machine

namespace Sys2Proof.Machine

/-! ### The validator's three commands (R85, R92, R95) -/

section

variable {v : Word} {s : State}

theorem decodeCommand_of_xferCode (h : v.extractLsb' 0 4 = 5#4) : decodeCommand v = .xfer :=
  decodeCommand_congr (w := 0x0005#16) h

theorem decodeCommand_of_decodeCode (h : v.extractLsb' 0 4 = 6#4) : decodeCommand v = .decodeCmd :=
  decodeCommand_congr (w := 0x0006#16) h

theorem decodeCommand_of_checkCode (h : v.extractLsb' 0 4 = 7#4) : decodeCommand v = .check :=
  decodeCommand_congr (w := 0x0007#16) h

theorem exec_xfer_of_mayTransfer (h : s.mayTransfer = true) : exec .xfer s = .next s.transfer.accept := by
  rw [exec_xfer, if_pos h]

theorem exec_xfer_of_not_mayTransfer (h : ¬ s.mayTransfer = true) : exec .xfer s = .next s.refuse := by
  rw [exec_xfer, if_neg h]

/-- All that an accepted XFER leaves changed (R85). -/
theorem transfer_accept_eq (s : State) :
    s.transfer.accept =
      { s with
        txstream := s.txstream ++ s.txBytes
        rxlen := 0
        rxexp := s.argData.toNat + 4
        rxstate := .receiving
        cmderr := false
        res := .cleared } := by
  simp only [State.transfer, State.linkSend, State.expect, State.setRxState, State.setResults, State.accept,
    State.expbody]

theorem refuse_eq (s : State) : s.refuse = { s with cmderr := true } := by rw [State.refuse]

/-- A request held is eight bytes (R30). -/
theorem txBytes_of_txlen (h : s.txlen = 8) : s.txBytes = s.txbuf.readBytes 0 8 := by rw [State.txBytes, h]

/-- DECODE leaves the nine result registers and `CMDERR` changed, nothing else. -/
theorem decodeFrame_accept_eq (s : State) (f : List Byte) :
    (s.decodeFrame f).accept = { s with res := decodeResults f, cmderr := false } := by
  simp only [decodeFrame_eq, State.setResults, State.accept, decodeResults]

theorem exec_decodeCmd_of_idle (h : s.rxstate = .idle) :
    exec .decodeCmd s = .next (s.decodeFrame s.rxBytes).accept := by
  rw [exec_decodeCmd, if_pos (mayDecode_iff.mpr h)]

theorem exec_decodeCmd_of_receiving (h : s.rxstate = .receiving) :
    exec .decodeCmd s = .next s.refuse := by
  simp [exec_decodeCmd, mayDecode_iff, h]

theorem exec_check_pass (hmay : s.mayCheck = true) (h : s.consistent = true) :
    exec .check s = .next { s with cmderr := false, res := { s.res with chk := .pass } } := by
  rw [exec_check, if_pos hmay, if_pos h]
  rfl

theorem exec_check_violation (hmay : s.mayCheck = true) (h : ¬ s.consistent = true) :
    exec .check s = .next { s with cmderr := false, res := { s.res with chk := .violation } } := by
  rw [exec_check, if_pos hmay, if_neg h]
  rfl

theorem exec_check_refused (h : ¬ s.mayCheck = true) : exec .check s = .next s.refuse := by
  rw [exec_check, if_neg h]

theorem not_mayCheck_iff :
    ¬ s.mayCheck = true ↔
      s.rxstate = .receiving ∨ s.txlen ≠ 8 ∨ (s.res.result ≠ .ok ∧ s.res.result ≠ .writeAck) := by
  rw [mayCheck_iff, ← not_receiving_iff, not_and_or, not_and_or, not_or, not_not]

/-- One byte of payload length, so that a count above 127 never fits it (R74, R95). -/
theorem paylen_ne_of_count {r : Results} {data : Word} (h : 127 < data.toNat) : r.paylen.toNat ≠ 2 * data.toNat := by
  have hbyte := r.paylen.isLt
  omega

end

/-- Settles O28: XFER's precondition is the one of R68, and what it sends is the request held. -/
theorem xferSendsTheRequestAndArmsTheReceiver : Obligations.XferSendsTheRequestAndArmsTheReceiver := by
  refine ⟨fun _ => decodeCommand_of_xferCode, fun s => ⟨fun h => ?_, fun h => ?_⟩⟩
  · have hmay := mayTransfer_iff.mpr h
    obtain ⟨_, hl, _⟩ := h
    rw [exec_xfer_of_mayTransfer hmay, transfer_accept_eq, txBytes_of_txlen hl, Results.cleared]
  · rw [exec_xfer_of_not_mayTransfer (mt mayTransfer_iff.mp h), refuse_eq]

/-- Settles O41: DECODE's precondition is `IDLE`, and what it classifies is the bytes held. -/
theorem decodeCommandClassifiesTheBytesHeld : Obligations.DecodeCommandClassifiesTheBytesHeld := by
  refine ⟨fun _ => decodeCommand_of_decodeCode, fun s => ⟨fun hidle => ?_, fun hrx => ?_⟩⟩
  · rw [exec_decodeCmd_of_idle hidle, decodeFrame_accept_eq, State.rxBytes]
  · rw [exec_decodeCmd_of_receiving hrx, refuse_eq]

/-- Settles O42: what `consistent` asks of each normal reply is what R95 lists, and CHECK's precondition is the one of
R68. -/
theorem checkComparesReplyWithRequest : Obligations.CheckComparesReplyWithRequest := by
  refine ⟨fun _ => decodeCommand_of_checkCode, fun s => ⟨fun hidle hl hok => ?_, fun hidle hl hack => ?_, fun h => ?_⟩⟩
  · have hmay := mayCheck_iff.mpr ⟨hidle, hl, .inl hok⟩
    have hread := consistent_ok_iff (s := s) hok
    exact ⟨fun h => exec_check_pass hmay (hread.mpr h),
      fun h => exec_check_violation hmay (mt hread.mp (not_and_or.mpr h)),
      fun h => exec_check_violation hmay (mt hread.mp fun ⟨_, hlen⟩ => paylen_ne_of_count h hlen)⟩
  · have hmay := mayCheck_iff.mpr ⟨hidle, hl, .inr hack⟩
    have hwrite := consistent_writeAck_iff (s := s) hack
    exact ⟨fun h => exec_check_pass hmay (hwrite.mpr h),
      fun h => exec_check_violation hmay (mt hwrite.mp (not_and_or.mpr (h.imp_right not_and_or.mpr)))⟩
  · rw [exec_check_refused (not_mayCheck_iff.mpr h), refuse_eq]

end Sys2Proof.Machine

namespace Sys2Proof.Machine

/-! ### The receiver's two steps (R88, R89) -/

section

variable {s : State} {b : Byte} {q : List Byte}

/-- RxByte with a byte waiting always has room for it. -/
theorem exec_rxByte_of_waiting (h : Inv s) (hrx : s.rxstate = .receiving) (hq : s.rxfifo = b :: q) :
    exec .rxByte s = .next ((s.setFifo q).storeRx b).completeReception := by
  change execRxByte s = _
  simp [execRxByte, State.busy, hrx, hq, h.rxlen_lt hrx]

/-- The frame boundary leaves the buffer alone. -/
@[simp] theorem completeReception_rxbuf (s : State) : s.completeReception.rxbuf = s.rxbuf := by
  unfold State.completeReception
  split
  · rw [decodeFrame_eq, State.setRxState_rxbuf, State.setResults_rxbuf]
  · rfl

@[simp] theorem completeReception_rxlen (s : State) : s.completeReception.rxlen = s.rxlen := by
  unfold State.completeReception
  split
  · rw [decodeFrame_eq, State.setRxState_rxlen, State.setResults_rxlen]
  · rfl

@[simp] theorem completeReception_rxBytes (s : State) : s.completeReception.rxBytes = s.rxBytes := by
  simp only [State.rxBytes, completeReception_rxbuf, completeReception_rxlen]

theorem exec_rxTimeout_of_silence (hrx : s.rxstate = .receiving) (hq : s.rxfifo = []) :
    exec .rxTimeout s = .next s.timeOut := by
  change execRxTimeout s = _
  simp [execRxTimeout, State.busy, hrx, hq]

/-- The timeout alone is recorded: nothing was before it (R89). -/
theorem timeOut_eq (h : s.res = .cleared) :
    s.timeOut = { s with rxstate := .idle, res := Reply.truncated.record .cleared } := by
  rw [← h]
  rfl

end

/-- Settles O29: a byte is stored in a buffer in canonical form, and the boundary is tested on the length after it. -/
theorem rxByteStoresOneByteAndClassifiesAtTheBoundary : Obligations.RxByteStoresOneByteAndClassifiesAtTheBoundary := by
  intro s b q hinv hrx hq
  have hheld : ((s.setFifo q).storeRx b).rxBytes = s.rxBytes ++ [b] := rxBytes_storeRx hinv.rxBuffer b
  refine ⟨_, exec_rxByte_of_waiting hinv hrx hq, ?_, fun a ha => ?_, ?_, fun hmore => ?_, fun hlast => ?_⟩
  · rw [completeReception_rxbuf]
    exact Memory.read_write_self hinv.rxBuffer
  · rw [completeReception_rxbuf]
    exact Memory.read_write_other ha
  · rw [completeReception_rxBytes, hheld]
  · rw [completeReception_of_ne hmore.ne]
    rfl
  · rw [completeReception_of_eq hlast, hheld, hlast]
    rfl

/-- Settles O30: while a byte is missing nothing is recorded but the timeout. -/
theorem rxTimeoutRecordsTruncated : Obligations.RxTimeoutRecordsTruncated := by
  intro s hinv hrx hq
  obtain ⟨hmissing, _, hres⟩ := hinv.receiving hrx
  refine ⟨hmissing, ?_⟩
  rw [exec_rxTimeout_of_silence hrx hq, timeOut_eq hres]
  rfl

end Sys2Proof.Machine

namespace Sys2Proof.Machine

/-! ### How a transaction begins and ends (R87, R98, R103) -/

section

variable {s t w w' : State} {e : Input} {l : List Input}

/-- Only XFER arms the receiver; only the completing byte, a timeout or a reset puts it to rest (R87). -/
theorem WireStep.rxstate_cases (h : WireStep w e w') (hne : w'.rxstate ≠ w.rxstate) :
    (w.rxstate = .idle ∧ w'.rxstate = .receiving ∧ e.Launches 5#4) ∨
    (w.rxstate = .receiving ∧ w'.rxstate = .idle ∧
      ((e = .receive ∧ w.rxfifo ≠ [] ∧ w.rxlen + 1 = w.rxexp) ∨ (e = .linkTimeout ∧ w.rxfifo = []) ∨ e = .reset)) := by
  cases h with
  | transfer v _ he hcode hidle => exact .inl ⟨hidle, rfl, v, he, hcode⟩
  | complete b q he hrx hq hlast =>
    exact .inr ⟨hrx, rfl, .inl ⟨he, hq ▸ List.cons_ne_nil b q, hlast⟩⟩
  | timeOut he hrx hq => exact .inr ⟨hrx, rfl, .inr (.inl ⟨he, hq⟩)⟩
  | reset he => exact .inr ⟨not_not.mp fun hrx => hne (not_receiving_iff.mp hrx).symm, rfl, .inr (.inr he)⟩
  | send | flush | request | store | decode | check => exact absurd rfl hne

/-- An input other than the receiver's turn stands in the list. -/
theorem inputs_of_nextInput (h : s.nextInput = e) (he : e ≠ .receive) : ∃ l, s.inputs = e :: l := by
  cases hi : s.inputs with
  | nil =>
    rw [State.nextInput, hi] at h
    exact absurd h.symm he
  | cons d l => exact ⟨l, by rw [← h, nextInput_of_cons hi]⟩

/-- An XFER that changes the receiver's state was accepted (R68). -/
theorem mayTransfer_of_launched (h : step s = .next t) (he : s.nextInput.Launches 5#4)
    (hne : t.rxstate ≠ s.rxstate) : s.mayTransfer = true := by
  obtain ⟨v, hv, hcode⟩ := he
  obtain ⟨l, hi⟩ := inputs_of_nextInput hv nofun
  rw [step_command hi, decodeCommand_of_xferCode hcode] at h
  by_contra hmay
  rw [exec_xfer_of_not_mayTransfer (s := s.setInputs l) hmay] at h
  cases h
  exact hne rfl

/-- What a transaction that is not abandoned ends with (R98). -/
theorem WireStep.outcome_of_end (h : WireStep w e w') (hw : Inv w) (hrx : w.rxstate = .receiving)
    (hend : w'.rxstate = .idle) (he : e ≠ .reset) :
    w'.res.result ≠ .none ∧
    ((w'.rxlen = w'.rxexp ∧ w'.res = decodeResults w'.rxBytes) ∨
     (w'.rxlen < w'.rxexp ∧ e = .linkTimeout ∧ w'.res.result = .truncated)) := by
  cases h with
  | complete b q _ _ _ hlast => exact ⟨record_result_ne_none _ _, .inl ⟨hlast, rfl⟩⟩
  | timeOut hin =>
    obtain ⟨hmissing, _, _⟩ := hw.receiving hrx
    exact ⟨nofun, .inr ⟨hmissing, hin, rfl⟩⟩
  | reset hreset => exact absurd hreset he
  | send | store => cases hrx.symm.trans hend
  | flush _ hidle | request _ _ _ _ _ hidle | transfer _ _ _ _ hidle | decode _ _ _ hidle | check _ _ _ _ hidle =>
    cases hrx.symm.trans hidle

end

/-- Settles O32: of all that a step can do on the wire side four change `RXSTATE`, and the XFER among them met its
precondition. -/
theorem receiverTransitionsAreExactlyThese : Obligations.ReceiverTransitionsAreExactlyThese := by
  intro s t h hne
  obtain ⟨hidle, hrx, he⟩ | hend := (step_wireStep h).rxstate_cases hne
  · obtain ⟨_, hl, hn⟩ := mayTransfer_iff.mp (mayTransfer_of_launched h he hne)
    exact .inl ⟨hidle, hrx, he, hl, hn⟩
  · exact .inr hend

/-- Settles O33: the completing byte and the timeout each record an outcome of their own. -/
theorem transactionEndsWithOneOutcome : Obligations.TransactionEndsWithOneOutcome := fun _ _ hinv hrx hend he h =>
  (step_wireStep h).outcome_of_end (inv_wireSide.mpr hinv) hrx hend he

/-- Settles O34: the run of the whole reception, by induction on the bytes missing. -/
theorem receptionCollectsAndClassifiesTheFrame : Obligations.ReceptionCollectsAndClassifiesTheFrame := by
  intro s f q rest hinv hrx hq hl hi
  obtain ⟨m, hrun, hheld⟩ := run_reception hinv hrx hq hl hi
  exact ⟨_, hrun, hheld, rfl⟩

end Sys2Proof.Machine

namespace Sys2Proof.Machine

/-! ### Which outcome needs which frame (R96) -/

section

variable {f : List Byte}

/-- What the outcome `r` asks of the frame `f` that it is the outcome of (R96). -/
def Reply.Needs (f : List Byte) : Reply → Prop
  | .ok n => f.length = n.toNat + 5 ∧ byteAt f 1 = 0x03#8 ∧ byteAt f 2 = n
  | .writeAck _ _ => f.length = 8 ∧ byteAt f 1 = 0x06#8
  | .deviceError c => f.length = 5 ∧ 0x80 ≤ (byteAt f 1).toNat ∧ byteAt f 2 = c
  | .checksumMismatch => 2 ≤ f.length ∧ crcReceived f ≠ crcComputed f
  | .truncated => True
  | .unexpected => 4 ≤ f.length

theorem classifyFrame_needs (hl : 4 ≤ f.length) : (classifyFrame f).Needs f := by
  unfold classifyFrame
  split
  · next hflag =>
    split
    · trivial
    · split
      · exact hl
      · exact ⟨by omega, Nat.ge_two_pow_of_testBit hflag, rfl⟩
  · split
    · next hfn =>
      split
      · trivial
      · split
        · trivial
        · split
          · exact hl
          · exact ⟨by omega, hfn, rfl⟩
    · split
      · next hfn =>
        split
        · trivial
        · split
          · exact hl
          · exact ⟨by omega, hfn⟩
      · exact hl

/-- A frame too short to hold a checksum. -/
theorem classify_of_lt_two (h : f.length < 2) : classify f = .truncated := if_pos h

theorem classify_of_crc_ne (hl : 2 ≤ f.length) (h : crcReceived f ≠ crcComputed f) :
    classify f = .checksumMismatch := by
  rw [classify, if_neg (Nat.not_lt.mpr hl), if_pos h]

/-- With a right checksum, four bytes are asked for before the function byte is looked at (R91 step 3). -/
theorem classify_of_crc_eq (hl : 2 ≤ f.length) (h : crcReceived f = crcComputed f) :
    classify f = if f.length < 4 then .truncated else classifyFrame f := by
  rw [classify, if_neg (Nat.not_lt.mpr hl), if_neg (not_not.mpr h)]

theorem classify_needs (f : List Byte) : (classify f).Needs f := by
  by_cases hl : f.length < 2
  · rw [classify_of_lt_two hl]
    trivial
  · have hlong := Nat.le_of_not_lt hl
    by_cases hcrc : crcReceived f = crcComputed f
    · rw [classify_of_crc_eq hlong hcrc]
      split
      · trivial
      · exact classifyFrame_needs (by omega)
    · rw [classify_of_crc_ne hlong hcrc]
      exact ⟨hlong, hcrc⟩

theorem classify_of_lt_four (h : f.length < 4) : classify f = .truncated ∨ classify f = .checksumMismatch := by
  by_cases hl : f.length < 2
  · exact .inl (classify_of_lt_two hl)
  · have hlong := Nat.le_of_not_lt hl
    by_cases hcrc : crcReceived f = crcComputed f
    · exact .inl ((classify_of_crc_eq hlong hcrc).trans (if_pos h))
    · exact .inr (classify_of_crc_ne hlong hcrc)

end

/-- Settles O39: what each outcome asks of its frame, along the branches of `decode`. -/
theorem outcomesNeedTheirLengths : Obligations.OutcomesNeedTheirLengths := by
  intro f
  have needs {r : Reply} (h : classify f = r) : r.Needs f := h ▸ classify_needs f
  exact ⟨fun _ => needs, fun _ _ => needs, fun _ => needs, ⟨needs, fun ⟨hl, hcrc⟩ => classify_of_crc_ne hl hcrc⟩,
    classify_of_lt_two, classify_of_lt_four, needs⟩

end Sys2Proof.Machine

namespace Sys2Proof.Machine

/-! ### A reply shorter than expected (R89, R98, C3) -/

section

variable {s : State} {f q : List Byte} {l rest : List Input} {dev code : Byte} {func : BitVec 7}

/-- The state in mid frame: `n` bytes are held in the buffer `m`, the bytes `q` wait. -/
def State.collected (s : State) (m : Memory) (n : Nat) (q : List Byte) (rest : List Input) : State :=
  { s with rxfifo := q, rxbuf := m, rxlen := n, inputs := rest }

/-- The state after a turn of the receiver that took the byte `b` and left the bytes `q` waiting (R88). -/
def State.afterByte (s : State) (b : Byte) (q : List Byte) (rest : List Input) : State :=
  ((s.setInputs rest).setFifo q).storeRx b

section

variable {b : Byte}

theorem afterByte_rxlen : (s.afterByte b q rest).rxlen = s.rxlen + 1 := rfl

theorem afterByte_rxexp : (s.afterByte b q rest).rxexp = s.rxexp := rfl

theorem afterByte_rxstate : (s.afterByte b q rest).rxstate = s.rxstate := rfl

theorem afterByte_rxBytes (h : s.rxbuf.wf Config.rxCap = true) :
    (s.afterByte b q rest).rxBytes = s.rxBytes ++ [b] :=
  rxBytes_storeRx (s := (s.setInputs rest).setFifo q) h b

theorem Inv.afterByte (h : Inv s) (hrx : s.rxstate = .receiving) (hmore : s.rxlen + 1 ≠ s.rxexp) :
    Inv (s.afterByte b q rest) :=
  ((h.setInputs rest).setFifo q).storeRx hrx hmore b

/-- What is held and what waits in mid frame is all that a turn changes. -/
theorem collected_afterByte {m : Memory} {n : Nat} :
    (s.afterByte b f l).collected m n q rest = s.collected m n q rest := by
  simp only [State.afterByte, State.collected, State.storeRx, State.setFifo, State.setInputs]

end

/-- As many turns of the receiver as bytes wait, where still more are expected. -/
theorem run_collect (h : Inv s) (hrx : s.rxstate = .receiving) (hq : s.rxfifo = f ++ q)
    (hl : s.rxlen + f.length < s.rxexp) (hi : s.inputs = List.replicate f.length Input.receive ++ rest) :
    ∃ m, Host.Core.run core f.length s = .next (s.collected m (s.rxlen + f.length) q rest) ∧
      m.readBytes 0 (s.rxlen + f.length) = s.rxBytes ++ f := by
  induction f generalizing s with
  | nil =>
    subst hi hq
    exact ⟨s.rxbuf, rfl, (List.append_nil _).symm⟩
  | cons b f ih =>
    rw [List.length_cons] at hl hi ⊢
    rw [List.replicate_succ, List.cons_append] at hi
    have hmore : s.rxlen + 1 ≠ s.rxexp := by omega
    have hlen : s.rxlen + (f.length + 1) = s.rxlen + 1 + f.length := by omega
    have hstep : step s = .next (s.afterByte b (f ++ q) (List.replicate f.length Input.receive ++ rest)) :=
      step_receive_more h hrx hq hi hmore
    obtain ⟨m, hrun, hheld⟩ := ih (h.afterByte (b := b) hrx hmore) (afterByte_rxstate.trans hrx) rfl
      (by rw [afterByte_rxlen, afterByte_rxexp]; omega) rfl
    rw [collected_afterByte, afterByte_rxlen] at hrun
    rw [afterByte_rxlen, afterByte_rxBytes h.rxBuffer, List.append_assoc, List.singleton_append] at hheld
    rw [hlen]
    exact ⟨m, (run_succ hstep).trans hrun, hheld⟩

/-- The state after a timeout that found `n` bytes in the buffer `m` (R89). -/
def State.silenced (s : State) (m : Memory) (n : Nat) (rest : List Input) : State :=
  { s.collected m n [] rest with rxstate := .idle, res := Reply.truncated.record .cleared }

theorem step_linkTimeout (hrx : s.rxstate = .receiving) (hq : s.rxfifo = []) (hi : s.inputs = .linkTimeout :: l) :
    step s = .next (s.setInputs l).timeOut := by
  rw [step_of_cons hi, runInput_of_operation rfl, exec_rxTimeout_of_silence (s := s.setInputs l) hrx hq]

/-- Nothing was recorded in mid frame, so the timeout alone is. -/
theorem timeOut_collected {m : Memory} {n : Nat} (h : s.res = .cleared) :
    ((s.collected m n [] l).setInputs rest).timeOut = s.silenced m n rest :=
  timeOut_eq (s := (s.collected m n [] l).setInputs rest) h

/-- A reply shorter than expected, and silence after it. -/
theorem run_shortReply (h : Inv s) (hrx : s.rxstate = .receiving) (hq : s.rxfifo = f)
    (hl : s.rxlen + f.length < s.rxexp)
    (hi : s.inputs = List.replicate f.length Input.receive ++ Input.linkTimeout :: rest) :
    ∃ m, Host.Core.run core (f.length + 1) s = .next (s.silenced m (s.rxlen + f.length) rest) ∧
      m.readBytes 0 (s.rxlen + f.length) = s.rxBytes ++ f := by
  obtain ⟨_, _, hres⟩ := h.receiving hrx
  obtain ⟨m, hrun, hheld⟩ := run_collect (q := []) h hrx (hq.trans (List.append_nil f).symm) hl hi
  have hsilence := step_linkTimeout (s := s.collected m (s.rxlen + f.length) [] (Input.linkTimeout :: rest)) hrx rfl rfl
  rw [timeOut_collected hres] at hsilence
  exact ⟨m, (run_add hrun).trans (run_one hsilence), hheld⟩

/-- DECODE launched in `IDLE` (R92). -/
theorem step_decodeCmd (hidle : s.rxstate = .idle) (hi : s.inputs = .hostWrite 0x00 0x0006#16 :: l) :
    step s = .next ((s.setInputs l).decodeFrame (s.setInputs l).rxBytes).accept := by
  rw [step_command hi, decodeCommand_of_decodeCode rfl, exec_decodeCmd_of_idle (s := s.setInputs l) hidle]

theorem classify_errorReply : classify (sealed (errorHead dev func code)) = .deviceError code := by
  have hflag : (byteAt (sealed (errorHead dev func code)) 1).getLsbD 7 = true :=
    BitVec.getLsbD_append.trans rfl
  rw [classify_sealed (by simp), classifyFrame, if_pos hflag]
  rfl

theorem decodeResults_deviceError (h : classify f = .deviceError code) :
    (decodeResults f).result = .deviceError ∧ (decodeResults f).errcode = code ∧
      ((decodeResults f).reqcrc = true ↔ code = 0x08#8) := by
  rw [decodeResults, h]
  exact ⟨rfl, rfl, beq_iff_eq⟩

end

/-- Settles O37: an error reply is too short for what is expected, so it waits in `RXBUF` until DECODE classifies it. -/
theorem errorReplyEndsTruncatedThenDecodes : Obligations.ErrorReplyEndsTruncatedThenDecodes := by
  intro s dev code func rest hinv hrx hlen hexp hq hi
  have hshort : s.rxlen + (sealed (errorHead dev func code)).length < s.rxexp := by
    rw [length_sealed, length_errorHead]
    omega
  obtain ⟨m, hrun, hheld⟩ := run_shortReply hinv hrx hq hshort hi
  have hnone : s.rxBytes = [] := by rw [State.rxBytes, hlen]; rfl
  rw [hlen, Nat.zero_add] at hrun hheld
  rw [hnone, List.nil_append] at hheld
  have hdecode := (run_add hrun).trans (run_one (step_decodeCmd rfl rfl))
  obtain ⟨hresult, herrcode, hreqcrc⟩ := decodeResults_deviceError
    ((congrArg classify hheld).trans (classify_errorReply (dev := dev) (func := func) (code := code)))
  exact ⟨⟨_, hrun, rfl, rfl, rfl, rfl, rfl⟩, ⟨_, hdecode, hresult, herrcode, hreqcrc, rfl, rfl⟩⟩

end Sys2Proof.Machine

namespace Sys2Proof.Machine

/-! ### The commands accepted during reception (R109) -/

section

variable {s c : State} {v : Word} {b : Byte} {q : List Byte} {i j : Instr}

/-- What NOP, CRC_INIT and CRC_BYTE leave changed: the accumulator holds `v`, and the command was accepted. -/
def State.answerCrc (s : State) (v : Word) : State := (s.setCrcacc v).accept

/-- The accumulator that one of the three commands leaves depends on the accumulator before it and on `ARG_DATA`. -/
theorem exec_crcCommand_eq (hi : i = .nop ∨ i = .crcInit ∨ i = .crcByteCmd) :
    ∃ g : Word → Word → Word, ∀ s, exec i s = .next (s.answerCrc (g s.crcacc s.argData)) := by
  obtain rfl | rfl | rfl := hi
  · exact ⟨fun acc _ => acc, exec_nop⟩
  · exact ⟨fun _ _ => Config.crcInit, exec_crcInit⟩
  · exact ⟨fun acc data => crcByte acc (data.extractLsb' 0 8), exec_crcByteCmd⟩

/-- In `IDLE`, or with nothing waiting, RxByte takes no step (R87). -/
theorem exec_rxByte_of_not_enabled (h : s.rxstate = .idle ∨ s.rxfifo = []) : exec .rxByte s = .next s := by
  change execRxByte s = _
  obtain hidle | hq := h
  · simp [execRxByte, State.busy, hidle]
  · simp [execRxByte, hq]

/-- In `IDLE`, or with a byte waiting, RxTimeout takes no step (R89). -/
theorem exec_rxTimeout_of_not_enabled (h : s.rxstate = .idle ∨ s.rxfifo ≠ []) : exec .rxTimeout s = .next s := by
  change execRxTimeout s = _
  obtain hidle | hq := h
  · simp [execRxTimeout, State.busy, hidle]
  · simp [execRxTimeout, hq]

/-- RxByte where the buffer has room, whether the invariant holds or not (R88). -/
theorem exec_rxByte_of_room (hrx : s.rxstate = .receiving) (hq : s.rxfifo = b :: q) (hroom : s.rxlen < Config.rxCap) :
    exec .rxByte s = .next ((s.setFifo q).storeRx b).completeReception := by
  change execRxByte s = _
  simp [execRxByte, State.busy, hrx, hq, hroom]

@[simp] theorem completeReception_answerCrc (s : State) (v : Word) :
    (s.answerCrc v).completeReception = s.completeReception.answerCrc v := by
  by_cases hfull : s.rxlen = s.rxexp
  · rw [completeReception_of_eq hfull, completeReception_of_eq (s := s.answerCrc v) hfull]
    rfl
  · rw [completeReception_of_ne hfull, completeReception_of_ne (s := s.answerCrc v) hfull]

/-- RxByte neither reads nor writes what the three commands write. -/
theorem exec_rxByte_answerCrc (h : exec .rxByte s = .next c) :
    exec .rxByte (s.answerCrc v) = .next (c.answerCrc v) := by
  change execRxByte s = .next c at h
  obtain ⟨hidle, hx⟩ | ⟨_, hq, hx⟩ | ⟨b, q, hrx, hq, hroom, hmore, hx⟩ | ⟨b, q, hrx, hq, hroom, hlast, hx⟩ |
    ⟨_, _, _, hx⟩ := execRxByte_cases s <;> rw [hx] at h <;> cases h
  · exact exec_rxByte_of_not_enabled (.inl hidle)
  · exact exec_rxByte_of_not_enabled (.inr hq)
  · rw [← completeReception_of_ne (s := (s.setFifo q).storeRx b) hmore, ← completeReception_answerCrc]
    exact exec_rxByte_of_room (s := s.answerCrc v) hrx hq hroom
  · have hdone : ((s.setFifo q).storeRx b).completeReception = _ := if_pos hlast
    rw [← hdone, ← completeReception_answerCrc]
    exact exec_rxByte_of_room (s := s.answerCrc v) hrx hq hroom

/-- RxTimeout writes only the results and `RXSTATE`, which the three commands leave alone. -/
theorem exec_rxTimeout_answerCrc (h : exec .rxTimeout s = .next c) :
    exec .rxTimeout (s.answerCrc v) = .next (c.answerCrc v) := by
  change execRxTimeout s = .next c at h
  obtain ⟨hrx, hq, hx⟩ | ⟨hoff, hx⟩ := execRxTimeout_cases s <;> rw [hx] at h <;> cases h
  · exact exec_rxTimeout_of_silence (s := s.answerCrc v) hrx hq
  · exact exec_rxTimeout_of_not_enabled hoff

theorem exec_receiver_answerCrc (hj : j = .rxByte ∨ j = .rxTimeout) (h : exec j s = .next c) :
    exec j (s.answerCrc v) = .next (c.answerCrc v) := by
  obtain rfl | rfl := hj
  · exact exec_rxByte_answerCrc h
  · exact exec_rxTimeout_answerCrc h

theorem exec_receiver_keeps_hostSide (hj : j = .rxByte ∨ j = .rxTimeout) (h : exec j s = .next c) :
    c.hostSide = s.hostSide := by
  obtain rfl | rfl := hj
  · exact execRxByte_keeps_hostSide h
  · exact execRxTimeout_keeps_hostSide h

end

/-- Settles O18: a receiver step keeps the accumulator and `ARG_DATA`, which are all that the three commands read, and goes
the same way whatever they have written. -/
theorem crcCommandsCommuteWithReceiver : Obligations.CrcCommandsCommuteWithReceiver := by
  intro i j s a b c hi hj ha hb hc
  obtain ⟨g, hg⟩ := exec_crcCommand_eq hi
  have hkept := exec_receiver_keeps_hostSide hj hc
  simp only [State.hostSide, Prod.mk.injEq] at hkept
  obtain ⟨hacc, _, _, hdata, _⟩ := hkept
  rw [hg] at ha
  cases ha
  rw [exec_receiver_answerCrc hj hc] at hb
  rw [hg, hacc, hdata, hb]

end Sys2Proof.Machine

namespace Sys2Proof.Machine

/-! ### The reset event, and the commands after it (R122 to R124) -/

/-- In `IDLE` no cause stands against codes 0 to 4: codes 0 to 2 have none, and the framer asks for `IDLE` alone (R68). -/
theorem not_refusalCause_of_idle {s : State} {v : Word} (hidle : s.rxstate = .idle)
    (hv : (v.extractLsb' 0 4).toNat ≤ 4) : ¬ RefusalCause v s :=
  (Nat.lt_or_ge 2 _).elim
    (fun h => (not_refusalCause_iff_mayEncode (hv.lt_or_eq.imp_left fun hlt => (Nat.le_of_lt_succ hlt).antisymm h)).mpr
      (mayEncode_iff.mpr hidle))
    not_refusalCause_of_unconditional

/-- Settles O52: the reset event launches no operation and leads to `State.resetBlock`, each of whose fields is the value of
R33 or the link's own. -/
theorem resetEventKeepsTheLink : Obligations.ResetEventKeepsTheLink := fun _ _ hi =>
  ⟨_, (step_of_cons hi).trans (runInput_of_plain rfl _), rfl, rfl, rfl, rfl, rfl, rfl, rfl, rfl, rfl, rfl, rfl, rfl, rfl, rfl⟩

/-- Settles O53: a reset leaves `IDLE` with no byte received and no request held, so that the framer is free, DECODE
classifies the empty frame, and XFER and CHECK lack their request. -/
theorem afterResetTheseCommandsAreAccepted : Obligations.AfterResetTheseCommandsAreAccepted := by
  refine fun s => ⟨fun v hv => ?_, exec_xfer_of_not_mayTransfer Bool.false_ne_true,
    exec_check_refused Bool.false_ne_true⟩
  obtain hlow | hdecode := hv
  · exact ((commandIsRefusedExactlyForItsCauses v _).2 (not_refusalCause_of_idle rfl hlow)).imp fun _ =>
      And.imp_right fun hcmderr => ⟨hcmderr, fun hdecode => absurd hlow (by rw [hdecode]; decide)⟩
  · rw [decodeCommand_of_decodeCode hdecode]
    exact ⟨_, exec_decodeCmd_of_idle rfl, rfl, fun _ => rfl⟩

end Sys2Proof.Machine

namespace Sys2Proof.Machine

/- The ascriptions below state each operation by its executor in place of `exec`, to which it unfolds: the whole text is
compiled in one process close to its memory limit, and the smaller term is what fits. -/

/-- Settles O58: the state after reset is itself one that a reset event leaves. -/
theorem resetMeetsTheInvariant : Obligations.ResetMeetsTheInvariant := ⟨inv_resetBlock State.reset, inv_resetBlock⟩

/-- Settles O31: what R87 and R89 ask of the receiver's two steps is missing. -/
theorem receiverStepsNeedTheirConditions : Obligations.ReceiverStepsNeedTheirConditions := fun s =>
  (⟨exec_rxByte_of_not_enabled, exec_rxTimeout_of_not_enabled⟩ :
    (∀ _h : s.rxstate = .idle ∨ s.rxfifo = [], execRxByte s = .next s) ∧
    ∀ _h : s.rxstate = .idle ∨ ¬ s.rxfifo = [], execRxTimeout s = .next s)

/-- Settles O7: `exec` of each of the three is, by definition, the answer that hands the value to the caller through
`State.setRetval`. -/
theorem crcFunctionsReturnTheirResultOnly : Obligations.CrcFunctionsReturnTheirResultOnly :=
  (⟨fun a s => Eq.refl (execCrcRound a s), fun a b s => Eq.refl (execCrcByte a b s), fun a s => Eq.refl (execCrc16 a s)⟩ :
    (∀ a s, execCrcRound a s = execCrcRound a s) ∧ (∀ a b s, execCrcByte a b s = execCrcByte a b s) ∧
    ∀ a s, execCrc16 a s = execCrc16 a s)

end Sys2Proof.Machine
